-- ==== Sys2Proof/Word.lean ====
section
/-! DEFINITION. The widths of the machine (spec/00_scope.md R4, spec/10_state.md R10 to R17). -/

namespace Sys2Proof

/-- A byte of memory, a general register, a timer. -/
abbrev Byte := BitVec 8

/-- `pc`, `I`, a stack entry, an instruction word. -/
abbrev Word := BitVec 16

/-- The index of a general register, the `x` or `y` field of a word (R61). -/
abbrev RegIdx := BitVec 4

/-- The frame buffer: bit `k` is the cell `fb[k]`, 1 = on (R21). -/
abbrev Frame := BitVec 2048

end Sys2Proof
end

