-- ==== Sys2Proof/Syntax.lean ====
section
/-! DEFINITION. The instruction set: one constructor per row of spec/opcode_table.json, in the table's order
(spec/30_encoding.md R62, R65). Operand fields are the bit fields of the word (R61), so every operand value is legal
(R63). -/

namespace Sys2Proof

/-- The 33 instructions of spec/30_encoding.md R65. -/
inductive Instr where
  /-- `00E0` `CLS` (R140). -/
  | cls
  /-- `00EE` `RET` (R100). -/
  | ret
  /-- `1nnn` `JP nnn` (R101). -/
  | jp (nnn : BitVec 12)
  /-- `2nnn` `CALL nnn` (R102). -/
  | call (nnn : BitVec 12)
  /-- `3xnn` `SE Vx, nn` (R103). -/
  | seImm (x : RegIdx) (nn : Byte)
  /-- `4xnn` `SNE Vx, nn` (R104). -/
  | sneImm (x : RegIdx) (nn : Byte)
  /-- `5xy0` `SE Vx, Vy` (R105). -/
  | seReg (x y : RegIdx)
  /-- `6xnn` `LD Vx, nn` (R110). -/
  | ldImm (x : RegIdx) (nn : Byte)
  /-- `7xnn` `ADD Vx, nn` (R112). -/
  | addImm (x : RegIdx) (nn : Byte)
  /-- `8xy0` `LD Vx, Vy` (R113). -/
  | ldReg (x y : RegIdx)
  /-- `8xy1` `OR Vx, Vy` (R114). -/
  | orReg (x y : RegIdx)
  /-- `8xy2` `AND Vx, Vy` (R115). -/
  | andReg (x y : RegIdx)
  /-- `8xy3` `XOR Vx, Vy` (R116). -/
  | xorReg (x y : RegIdx)
  /-- `8xy4` `ADD Vx, Vy` (R117). -/
  | addReg (x y : RegIdx)
  /-- `8xy5` `SUB Vx, Vy` (R118). -/
  | sub (x y : RegIdx)
  /-- `8xy6` `SHR Vx` (R119). The `y` field is ignored by the operation (R63, R68) and kept here so that each legal word
  is the encoding of exactly one instruction. -/
  | shr (x y : RegIdx)
  /-- `8xy7` `SUBN Vx, Vy` (R120). -/
  | subn (x y : RegIdx)
  /-- `8xyE` `SHL Vx` (R121). The `y` field is ignored by the operation, as in `shr`. -/
  | shl (x y : RegIdx)
  /-- `9xy0` `SNE Vx, Vy` (R106). -/
  | sneReg (x y : RegIdx)
  /-- `Annn` `LD I, nnn` (R130). -/
  | ldI (nnn : BitVec 12)
  /-- `Cxnn` `RND Vx, nn` (R122). -/
  | rnd (x : RegIdx) (nn : Byte)
  /-- `Dxyn` `DRW Vx, Vy, n` (R141). -/
  | drw (x y : RegIdx) (n : BitVec 4)
  /-- `Ex9E` `SKP Vx` (R150). -/
  | skp (x : RegIdx)
  /-- `ExA1` `SKNP Vx` (R151). -/
  | sknp (x : RegIdx)
  /-- `Fx07` `LD Vx, DT` (R152). -/
  | ldVxDt (x : RegIdx)
  /-- `Fx0A` `LD Vx, K` (R153). -/
  | ldVxK (x : RegIdx)
  /-- `Fx15` `LD DT, Vx` (R154). -/
  | ldDtVx (x : RegIdx)
  /-- `Fx18` `LD ST, Vx` (R155). -/
  | ldStVx (x : RegIdx)
  /-- `Fx1E` `ADD I, Vx` (R131). -/
  | addI (x : RegIdx)
  /-- `Fx29` `LD F, Vx` (R132). -/
  | ldF (x : RegIdx)
  /-- `Fx33` `LD B, Vx` (R133). -/
  | ldB (x : RegIdx)
  /-- `Fx55` `LD [I], Vx` (R134). -/
  | storeRegs (x : RegIdx)
  /-- `Fx65` `LD Vx, [I]` (R135). -/
  | loadRegs (x : RegIdx)
  deriving DecidableEq, Repr

end Sys2Proof
end

