-- ==== Sys2Proof/WellFormed.lean ====
section
/-! DEFINITION. Well-formedness of an instruction: each operand lies in the range spec/30_encoding.md R61 and R63 give its
field. The operands' types already hold the ranges, so every term of `Instr` is well formed (Laws/Encoding.lean proves it);
the checks are on numbers, so that they say something of numbers that are no operand. -/

namespace Sys2Proof

/-- `x`, `y`: "register indices 0..15". -/
def WellFormed.isReg (k : Nat) : Bool := decide (k ≤ 15)

/-- `nn`: "an unsigned 8-bit value". -/
def WellFormed.isImm (k : Nat) : Bool := decide (k ≤ 0xFF)

/-- `nnn`: "can therefore name exactly the addresses 0x000..0xFFF". -/
def WellFormed.isAddr (k : Nat) : Bool := decide (k ≤ 0xFFF)

/-- `n`: "an unsigned count 0..15". -/
def WellFormed.isCount (k : Nat) : Bool := decide (k ≤ 15)

/-- Every operand of the instruction is in its field's range (R63). -/
def Instr.wellFormed : Instr → Bool
  | .cls | .ret => true
  | .jp nnn | .call nnn | .ldI nnn => WellFormed.isAddr nnn.toNat
  | .seImm x nn | .sneImm x nn | .ldImm x nn | .addImm x nn | .rnd x nn =>
    WellFormed.isReg x.toNat && WellFormed.isImm nn.toNat
  | .seReg x y | .sneReg x y | .ldReg x y | .orReg x y | .andReg x y | .xorReg x y | .addReg x y | .sub x y | .shr x y
  | .subn x y | .shl x y => WellFormed.isReg x.toNat && WellFormed.isReg y.toNat
  | .drw x y n => WellFormed.isReg x.toNat && WellFormed.isReg y.toNat && WellFormed.isCount n.toNat
  | .skp x | .sknp x | .ldVxDt x | .ldVxK x | .ldDtVx x | .ldStVx x | .addI x | .ldF x | .ldB x | .storeRegs x
  | .loadRegs x => WellFormed.isReg x.toNat

end Sys2Proof
end

