-- ==== Sys2Proof/Config.lean ====
section
/-! DEFINITION. What the spec leaves open as a parameter and the model leaves free. The default of the other parameter,
FONTSET, stands in Machine/Ops.lean; the fixed sizes of spec/00_scope.md R4 stand in the types and definitions that use
them. -/

namespace Sys2Proof

/-- The random byte `rnd` of the `k`-th `Cxnn` of a run (spec/10_state.md R25, spec/42_alu.md R122): a fresh draw, under no
law, so a function of the draw's number with no body. Log entry 2; safe. -/
opaque Config.randomByte : Nat → Byte

end Sys2Proof
end

