-- ==== Sys2Proof/Machine/State.lean ====
section
/-! DEFINITION. The state of the core as plain data (spec/10_state.md), the state after reset, and the reasons an outcome
can be no next state. -/

namespace Sys2Proof.Machine

/-- Why the core faulted: the codes of spec/60_exceptions.md R162. -/
inductive FaultCause where
  /-- Code 0, the reset value: no fault. -/
  | none
  /-- Code 1: the fetched word matches no pattern. -/
  | illegalOpcode
  /-- Code 2: `2nnn` with 16 entries on the stack. -/
  | stackOverflow
  /-- Code 3: `00EE` with an empty stack. -/
  | stackUnderflow
  /-- Code 4: `pc > 0xFFE` at a fetch. -/
  | fetchRange
  /-- Code 5: a data address above 0xFFF. -/
  | memRange
  /-- Code 6: a key index above 0x0F. -/
  | keyIndex
  deriving DecidableEq, Repr

/-- What a step returns (spec/40_step_cycle.md R80, R87). -/
inductive StepResult where
  /-- No step has been taken since reset. -/
  | none
  /-- `Ok(running_out)`. -/
  | ok (runningOut : Bool)
  /-- `Fault(cause)`. -/
  | fault (cause : FaultCause)
  deriving DecidableEq, Repr

/-- The 4096 bytes as the cells that differ from the reset contents, addresses strictly rising (Machine/Ops.lean's
`Memory.wf`). -/
abbrev Memory := List Host.Cell

/-- Everything the core holds or shares (spec/10_state.md), under the spec's names. -/
structure State where
  /-- General registers `V[0]`..`V[15]` (R10); `V[15]` is `VF` (R11). -/
  V : Vector Byte 16
  /-- Index register (R13). -/
  I : Word
  /-- Program counter (R12). -/
  pc : Word
  /-- Stack pointer, 0..16 (R14). -/
  sp : Fin 17
  /-- Return addresses `stack[0]`..`stack[15]` (R14). -/
  stack : Vector Word 16
  /-- Delay timer (R15). -/
  delayTimer : Byte
  /-- Sound timer (R15). -/
  soundTimer : Byte
  /-- Waiting for a key (R16). -/
  halted : Bool
  /-- The register a pending `Fx0A` will write (R16). -/
  keyTarget : RegIdx
  /-- Memory (R20). -/
  memory : Memory
  /-- Frame buffer (R21). -/
  fb : Frame
  /-- Frame dirty mark (R22). -/
  dirty : Bool
  /-- Sticky fault bit (R17). -/
  faulted : Bool
  /-- Cause of the fault (R17). -/
  faultCause : FaultCause
  /-- `pc` at the start of the faulting step (R17). -/
  faultPc : Word
  /-- The faulting word, 0x0000 when none was fetched (R17). -/
  faultOpcode : Word
  /-- Keypad edge flag, set by the host, consumed by the core (R24). -/
  keyEdge : Bool
  /-- Input: key levels, bit `k` = key `k`, 1 = pressed (R24, R26). -/
  keys : BitVec 16
  /-- Input: the opaque "running" signal (R25). -/
  runningIn : Bool
  /-- Output: what the last step returned (R80, R87); log entry 1. -/
  result : StepResult
  /-- The model's own: how many random bytes have been drawn; log entry 2. -/
  draws : Nat
  deriving DecidableEq, Repr

/-- Reasons the model stops outside the state. Every fault of the spec is a next state in mode FAULTED, not one of these. -/
inductive Fault where
  /-- Raised by `memRead` and `memWrite` for an address above 0xFFF, which the spec says does not exist. No step reaches it,
  because every instruction checks its whole range first (spec/20_memory.md R42, R43). Safe; log entry 15. -/
  | outsideMemory (address : Nat)
  deriving DecidableEq, Repr

/-- Reasons the model has no move. -/
inductive Refusal where
  /-- An arm of `exec` that has no meaning. No arm uses it: every instruction has its meaning. Safe. -/
  | notModelled (mnemonic : String)
  /-- Raised by `Bench.move` for a program load that is not the one load between reset and the first step
  (spec/70_reset_and_hazards.md R193, R196). Safe. -/
  | loadOutsideBoot
  /-- Raised by `Bench.step` for a step before the load (R196). Safe. -/
  | stepBeforeLoad
  deriving DecidableEq, Repr

/-- What executing an instruction or taking a step answers. -/
abbrev Result := Host.Outcome State Fault Refusal

/-- The machine right after reset (spec/10_state.md R27, spec/70_reset_and_hazards.md R190). Values the spec does not give:
`keyEdge`, a free launch input (log entry 5); the inputs `keys` and `runningIn` (log entry 4); the model's own `result` (log
entry 1) and `draws` (log entry 2). -/
def State.reset : State where
  V := Vector.replicate 16 0
  I := 0
  pc := 0x0200
  sp := 0
  stack := Vector.replicate 16 0
  delayTimer := 0
  soundTimer := 0
  halted := false
  keyTarget := 0
  memory := []
  fb := 0
  dirty := false
  faulted := false
  faultCause := .none
  faultPc := 0
  faultOpcode := 0
  keyEdge := false
  keys := 0
  runningIn := false
  result := .none
  draws := 0

end Sys2Proof.Machine
end

