-- ==== Sys2Proof/Machine/Ops.lean ====
section
/-! DEFINITION. The named operations over memory, registers, stack and timers, and the one operation that takes a fault.
There is no return from a fault (spec/60_exceptions.md R167): the only way out of FAULTED is reset, `State.resetWith` in
Machine/HostMoves.lean. -/

namespace Sys2Proof.Machine

/-! ### Memory -/

/-- The glyphs of spec/10_state.md R23, five bytes each, 0 to 7. -/
def fontLow : List Byte :=
  [0xF0, 0x90, 0x90, 0x90, 0xF0] ++ [0x20, 0x60, 0x20, 0x20, 0x70] ++ [0xF0, 0x10, 0xF0, 0x80, 0xF0] ++
  [0xF0, 0x10, 0xF0, 0x10, 0xF0] ++ [0x90, 0x90, 0xF0, 0x10, 0x10] ++ [0xF0, 0x80, 0xF0, 0x10, 0xF0] ++
  [0xF0, 0x80, 0xF0, 0x90, 0xF0] ++ [0xF0, 0x10, 0x20, 0x40, 0x40]

/-- The glyphs of spec/10_state.md R23, five bytes each, 8 to F. -/
def fontHigh : List Byte :=
  [0xF0, 0x90, 0xF0, 0x90, 0xF0] ++ [0xF0, 0x90, 0xF0, 0x10, 0xF0] ++ [0xF0, 0x90, 0xF0, 0x90, 0x90] ++
  [0xE0, 0x90, 0xE0, 0x90, 0xE0] ++ [0xF0, 0x80, 0x80, 0x80, 0xF0] ++ [0xE0, 0x90, 0x90, 0x90, 0xE0] ++
  [0xF0, 0x80, 0xF0, 0x80, 0xF0] ++ [0xF0, 0x80, 0xF0, 0x80, 0x80]

/-- The parameter FONTSET at its default (R23). PRESUMED: the spec marks the bytes as general knowledge; log entry 3. -/
def fontset : Vector Byte 80 := ⟨(fontLow ++ fontHigh).toArray, by decide⟩

/-- What an address that memory does not list reads as: its content after reset (R27), FONTSET at 0x050..0x09F and 0x00
elsewhere. -/
def Memory.unlisted (a : Nat) : Byte :=
  if h : 0x050 ≤ a ∧ a ≤ 0x09F then fontset[a - 0x050]'(by omega) else 0

/-- The byte at an address: `memory[a]` (spec/20_memory.md R40). -/
def Memory.read : Memory → Nat → Byte
  | [], a => Memory.unlisted a
  | (b, v) :: m, a => if a = b then v else Memory.read m a

/-- Lists a cell at its place in the rising order. -/
def Memory.insert (a : Nat) (v : Byte) : Memory → Memory
  | [] => [(a, v)]
  | (b, w) :: m => if a < b then (a, v) :: (b, w) :: m else if a = b then (a, v) :: m else (b, w) :: Memory.insert a v m

/-- Unlists an address. -/
def Memory.erase (a : Nat) : Memory → Memory
  | [] => []
  | (b, w) :: m => if a = b then Memory.erase a m else (b, w) :: Memory.erase a m

/-- `memory[a] <- v` (R40), keeping the canonical form: writing what the unlisted address reads as unlists it. -/
def Memory.write (m : Memory) (a : Nat) (v : Byte) : Memory :=
  if v = Memory.unlisted a then Memory.erase a m else Memory.insert a v m

/-- `memory[a + j] <- bytes[j]`, ascending. -/
def Memory.writeList (m : Memory) (a : Nat) : List Byte → Memory
  | [] => m
  | b :: bs => Memory.writeList (Memory.write m a b) (a + 1) bs

/-- The cells rise strictly from `lo`, exist, and differ from what they would read as unlisted. -/
def Memory.wfFrom (lo : Nat) : Memory → Bool
  | [] => true
  | (a, v) :: m => decide (lo ≤ a ∧ a ≤ 0xFFF ∧ v ≠ Memory.unlisted a) && Memory.wfFrom (a + 1) m

/-- The canonical form: equal memories are equal lists. -/
def Memory.wf (m : Memory) : Bool := Memory.wfFrom 0 m

/-- `MemRead(a, 1)` (spec/00_scope.md R6): the address must exist. -/
def memRead (a : Nat) (s : State) : Except Fault Byte :=
  if a ≤ 0xFFF then .ok (s.memory.read a) else .error (.outsideMemory a)

/-- `MemWrite(a, 1, v)` (R6): the address must exist. -/
def memWrite (a : Nat) (v : Byte) (s : State) : Except Fault State :=
  if a ≤ 0xFFF then .ok { s with memory := s.memory.write a v } else .error (.outsideMemory a)

/-- `k` byte reads from `a` upward, in ascending order (spec/20_memory.md R46). -/
def memReads (s : State) : Nat → Nat → Except Fault (List Byte)
  | _, 0 => .ok []
  | a, k + 1 =>
    match memRead a s with
    | .error f => .error f
    | .ok b =>
      match memReads s (a + 1) k with
      | .error f => .error f
      | .ok bs => .ok (b :: bs)

/-- Byte writes from `a` upward, in ascending order (R46). -/
def memWrites : Nat → List Byte → State → Except Fault State
  | _, [], s => .ok s
  | a, b :: bs, s =>
    match memWrite a b s with
    | .error f => .error f
    | .ok t => memWrites (a + 1) bs t

/-- Goes on with the answer of a memory primitive; a guard that fired stops the model. -/
def withMem {α : Type} (r : Except Fault α) (k : α → Result) : Result :=
  match r with
  | .error f => .fault f
  | .ok a => k a

/-! ### Registers -/

/-- `V[x]` (spec/10_state.md R10). -/
def State.reg (s : State) (x : RegIdx) : Byte := s.V[x.toNat]'x.isLt

/-- `V[x] <- v` (R10). -/
def State.setReg (s : State) (x : RegIdx) (v : Byte) : State := { s with V := s.V.set x.toNat v x.isLt }

/-- `VF <- v` (R11). -/
def State.setFlag (s : State) (v : Byte) : State := s.setReg 0xF v

/-- `V[k] <- bytes[k]` for every byte given (R10, spec/43_index_memory.md R135). -/
def State.setRegs (s : State) (bytes : List Byte) : State :=
  { s with V := Vector.ofFn fun k : Fin 16 => bytes[k.val]?.getD s.V[k.val] }

/-- `I <- a` (R13). -/
def State.setI (s : State) (a : Word) : State := { s with I := a }

/-- `pc <- a` (R12). -/
def State.setPc (s : State) (a : Word) : State := { s with pc := a }

/-- `pc <- pc0 + 2`, modulo 2^16 (spec/40_step_cycle.md R85). -/
def State.advance (s : State) : State := s.setPc (s.pc + 2)

/-- `pc <- pc0 + 4` if the condition holds, else `pc0 + 2`, modulo 2^16 (R85). -/
def State.skipIf (s : State) (c : Bool) : State := s.setPc (if c then s.pc + 4 else s.pc + 2)

/-! ### Stack -/

/-- Push (R14): `none` when all 16 entries are in use. -/
def State.push (s : State) (a : Word) : Option State :=
  if h : s.sp.val < 16 then
    some { s with stack := s.stack.set s.sp.val a h, sp := ⟨s.sp.val + 1, by omega⟩ }
  else none

/-- Pop (R14): the popped value and the state with `sp` lowered, the entry left in place; `none` when `sp` is 0. -/
def State.pop (s : State) : Option (Word × State) :=
  if h : 0 < s.sp.val then
    some (s.stack[s.sp.val - 1]'(by omega), { s with sp := ⟨s.sp.val - 1, by omega⟩ })
  else none

/-! ### Timers -/

/-- One timer at a tick (spec/60_exceptions.md R170): down by 1, not below 0. -/
def tickTimer (t : Byte) : Byte := if 0 < t then t - 1 else t

/-- `TimerTick()` (R170). -/
def State.tick (s : State) : State :=
  { s with delayTimer := tickTimer s.delayTimer, soundTimer := tickTimer s.soundTimer }

/-! ### Faults -/

/-- The code of a cause in the three bits of `fault_cause` (R162). -/
def FaultCause.code : FaultCause → BitVec 3
  | .none => 0
  | .illegalOpcode => 1
  | .stackOverflow => 2
  | .stackUnderflow => 3
  | .fetchRange => 4
  | .memRange => 5
  | .keyIndex => 6

/-- Fault entry (R161): the report is written from `pc` and the word, everything else is as at the start of the step, and
the step returns `Fault(c)`. The timers do not tick. -/
def takeFault (c : FaultCause) (opcode : Word) (s : State) : State :=
  { s with faulted := true, faultCause := c, faultPc := s.pc, faultOpcode := opcode, result := .fault c }

/-- An instruction raises a fault of its own (R84, R161): the state is the one it started from, the word reported is its
own. -/
def raiseFault (c : FaultCause) (i : Instr) (s : State) : Result := .next (takeFault c (encode i) s)

end Sys2Proof.Machine
end

