-- ==== Sys2Proof/Machine/Cycle.lean ====
section
/-! DEFINITION. The phases of a step around the execute phase (spec/40_step_cycle.md): the mode, fetch and decode, the end of
a running step, the waiting step, the faulted step. Machine/Step.lean only puts them together. -/

namespace Sys2Proof.Machine

/-- The three modes of the core (spec/10_state.md R18). -/
inductive Mode where
  | running
  | waitingForKey
  | faulted
  deriving DecidableEq, Repr

/-- The mode is a function of `faulted` and `halted` (R18). -/
def State.mode (s : State) : Mode :=
  if s.faulted then .faulted else if s.halted then .waitingForKey else .running

/-- The two bytes of an instruction exist: `pc <= 0xFFE` (R82, spec/20_memory.md R43). -/
def State.fetchable (s : State) : Bool := decide (s.pc.toNat ≤ 0xFFE)

/-- `MemRead(pc0, 1) ++ MemRead(pc0 + 1, 1)` (R82, spec/20_memory.md R44). -/
def fetchWord (s : State) : Except Fault Word :=
  match memRead s.pc.toNat s with
  | .error f => .error f
  | .ok hi =>
    match memRead (s.pc.toNat + 1) s with
    | .error f => .error f
    | .ok lo => .ok (wordOfBytes hi lo)

/-- Fetch and decode (R82, R83): the instruction to execute, or how the step ends without one. -/
def fetchDecode (s : State) : Except Result Instr :=
  if s.fetchable then
    match fetchWord s with
    | .error f => .error (.fault f)
    | .ok w =>
      match decodeWord w with
      | some i => .ok i
      | none => .error (.next (takeFault .illegalOpcode w s))
  else .error (.next (takeFault .fetchRange 0 s))

/-- The end of a running or waiting step that did not fault: the timers tick and the step returns `Ok(running_in)` (R86,
R87). -/
def State.finish (s : State) : State := { s.tick with result := .ok s.runningIn }

/-- The end of a running step: a state in which the execute phase has raised a fault is the step's answer, any other is
finished (R81). -/
def retire (o : Result) : Result :=
  match o with
  | .next t => .next (if t.faulted then t else t.finish)
  | .fault f => .fault f
  | .refused r => .refused r

/-- The lowest-numbered key that is down (R88). -/
def lowestKey (keys : BitVec 16) : Option Nat := (List.range 16).find? fun k => keys.getLsbD k

/-- The key-wait resume: the key's index into `V[key_target]`, `pc` on, back to RUNNING (R88). -/
def State.resume (s : State) (k : Nat) : State :=
  { (s.setReg s.keyTarget (BitVec.ofNat 8 k)).advance with halted := false }

/-- What a waiting step does to a state whose edge flag is set: the flag is consumed, and the core resumes if a key is down
(R88); log entry 11. -/
def State.consumeEdge (s : State) : State :=
  match lowestKey s.keys with
  | some k => ({ s with keyEdge := false } : State).resume k
  | none => { s with keyEdge := false }

/-- A step that starts in WAITING_FOR_KEY (R88). -/
def waitingStep (s : State) : State := (if s.keyEdge then s.consumeEdge else s).finish

/-- A step that starts in FAULTED: nothing changes, the same fault is returned (R89). -/
def faultedStep (s : State) : State := { s with result := .fault s.faultCause }

/-- `s` with a word laid at `pc` in memory order, where the two bytes exist. -/
def State.placeWord (s : State) (w : Word) : State :=
  if s.fetchable then { s with memory := s.memory.writeList s.pc.toNat (bytesOfWord w) } else s

end Sys2Proof.Machine
end

