-- ==== Sys2Proof/Machine/Flags.lean ====
section
/-! DEFINITION. What the group 8 instructions put into `VF` and into `V[x]`, from the operands read at the start
(spec/42_alu.md R111, R117 to R121). -/

namespace Sys2Proof.Machine

/-- `trunc_8(v)`. -/
def truncByte (v : Nat) : Byte := BitVec.ofNat 8 v

/-- `8xy4`: 1 if the sum is above 255, else 0 (R117). -/
def addFlag (a b : Byte) : Byte := if a.toNat + b.toNat > 255 then 1 else 0

/-- `8xy4`, `7xnn`: the sum modulo 256 (R112, R117). -/
def addValue (a b : Byte) : Byte := truncByte (a.toNat + b.toNat)

/-- `8xy5`, `8xy7`: 1 if `a > b`, strictly, else 0 (R118, R120). -/
def subFlag (a b : Byte) : Byte := if a.toNat > b.toNat then 1 else 0

/-- `8xy5`, `8xy7`: `a - b` if `a >= b`, else `a - b + 256` (R118, R120). -/
def subValue (a b : Byte) : Byte := truncByte (a.toNat + 256 - b.toNat)

/-- `8xy6`: the bit shifted out, `a & 1` (R119). -/
def shrFlag (a : Byte) : Byte := a &&& 1

/-- `8xy6`: logical shift right by one (R119). -/
def shrValue (a : Byte) : Byte := a >>> 1

/-- `8xyE`: the bit shifted out, `a >> 7` (R121). -/
def shlFlag (a : Byte) : Byte := a >>> 7

/-- `8xyE`: shift left by one, modulo 256 (R121). -/
def shlValue (a : Byte) : Byte := a <<< 1

end Sys2Proof.Machine
end

