-- ==== Sys2Proof/Machine/Operands.lean ====
section
/-! DEFINITION. The operand forms: immediates, zero extension, data addresses and their range check, the register range, the
key operand (spec/30_encoding.md R63, spec/20_memory.md R42, spec/43_index_memory.md R136). -/

namespace Sys2Proof.Machine

/-- `zext_16(nnn)`: the 12-bit address as a `pc` or `I` value (R63). -/
def addrOperand (nnn : BitVec 12) : Word := nnn.setWidth 16

/-- `zext_16(v)` of a register (spec/43_index_memory.md R131, R132). -/
def byteOperand (v : Byte) : Word := v.setWidth 16

/-- The base of every data access: `I` as its full 16-bit value, a natural number (R42). -/
def dataBase (s : State) : Nat := s.I.toNat

/-- The range check of R42 for an instruction that accesses `count` bytes from `I`: with `count > 0`, the last address
`I + count - 1` is above 0xFFF. -/
def outOfRange (s : State) (count : Nat) : Bool := decide (0 < count ∧ dataBase s + count - 1 > 0xFFF)

/-- How many registers `V[0]`..`V[x]` are. -/
def rangeCount (x : RegIdx) : Nat := x.toNat + 1

/-- The values of `V[0]`..`V[x]` in order (spec/43_index_memory.md R134). -/
def regRange (s : State) (x : RegIdx) : List Byte := s.V.toList.take (rangeCount x)

/-- The level of the key that a register names: `none` when the value is above 0x0F, else `keys[V[x]]`
(spec/45_keypad_timers.md R150). -/
def keyOperand (s : State) (x : RegIdx) : Option Bool :=
  if (s.reg x).toNat > 0x0F then none else some (s.keys.getLsbD (s.reg x).toNat)

end Sys2Proof.Machine
end

