-- ==== Sys2Proof/Machine/Alu.lean ====
section
/-! DEFINITION. Arithmetic, logic and random (spec/42_alu.md). -/

namespace Sys2Proof.Machine

/-- The shape of an instruction that writes `V[x]` and no flag. -/
def writeReg (x : RegIdx) (v : Byte) (s : State) : Result := .next (s.setReg x v).advance

/-- The shape of an instruction that writes a flag and a result, both computed before either is written: the flag into `VF`
first, the result into `V[x]` last (R111). -/
def writeFlagReg (x : RegIdx) (flag v : Byte) (s : State) : Result := .next ((s.setFlag flag).setReg x v).advance

/-- `6xnn` `LD Vx, nn` (R110). -/
def execLdImm (x : RegIdx) (nn : Byte) (s : State) : Result := writeReg x nn s

/-- `7xnn` `ADD Vx, nn` (R112). -/
def execAddImm (x : RegIdx) (nn : Byte) (s : State) : Result := writeReg x (addValue (s.reg x) nn) s

/-- `8xy0` `LD Vx, Vy` (R113). -/
def execLdReg (x y : RegIdx) (s : State) : Result := writeReg x (s.reg y) s

/-- `8xy1` `OR Vx, Vy` (R114). -/
def execOrReg (x y : RegIdx) (s : State) : Result := writeReg x (s.reg x ||| s.reg y) s

/-- `8xy2` `AND Vx, Vy` (R115). -/
def execAndReg (x y : RegIdx) (s : State) : Result := writeReg x (s.reg x &&& s.reg y) s

/-- `8xy3` `XOR Vx, Vy` (R116). -/
def execXorReg (x y : RegIdx) (s : State) : Result := writeReg x (s.reg x ^^^ s.reg y) s

/-- `8xy4` `ADD Vx, Vy` (R117). -/
def execAddReg (x y : RegIdx) (s : State) : Result :=
  writeFlagReg x (addFlag (s.reg x) (s.reg y)) (addValue (s.reg x) (s.reg y)) s

/-- `8xy5` `SUB Vx, Vy` (R118). -/
def execSub (x y : RegIdx) (s : State) : Result :=
  writeFlagReg x (subFlag (s.reg x) (s.reg y)) (subValue (s.reg x) (s.reg y)) s

/-- `8xy6` `SHR Vx` (R119): the `y` field is ignored. -/
def execShr (x : RegIdx) (s : State) : Result := writeFlagReg x (shrFlag (s.reg x)) (shrValue (s.reg x)) s

/-- `8xy7` `SUBN Vx, Vy` (R120). -/
def execSubn (x y : RegIdx) (s : State) : Result :=
  writeFlagReg x (subFlag (s.reg y) (s.reg x)) (subValue (s.reg y) (s.reg x)) s

/-- `8xyE` `SHL Vx` (R121): the `y` field is ignored. -/
def execShl (x : RegIdx) (s : State) : Result := writeFlagReg x (shlFlag (s.reg x)) (shlValue (s.reg x)) s

/-- The random byte of this execution, and the state in which it has been drawn (spec/10_state.md R25); log entry 2. -/
def State.drawRandom (s : State) : Byte × State := (Config.randomByte s.draws, { s with draws := s.draws + 1 })

/-- `Cxnn` `RND Vx, nn` (R122). -/
def execRnd (x : RegIdx) (nn : Byte) (s : State) : Result := writeReg x (s.drawRandom.1 &&& nn) s.drawRandom.2

end Sys2Proof.Machine
end

