-- ==== Sys2Proof/Machine/ControlFlow.lean ====
section
/-! DEFINITION. Control flow (spec/41_control_flow.md). -/

namespace Sys2Proof.Machine

/-- `00EE` `RET` (R100). -/
def execRet (s : State) : Result :=
  match s.pop with
  | none => raiseFault .stackUnderflow .ret s
  | some (a, t) => .next (t.setPc (a + 2))

/-- `1nnn` `JP nnn` (R101). -/
def execJp (nnn : BitVec 12) (s : State) : Result := .next (s.setPc (addrOperand nnn))

/-- `2nnn` `CALL nnn` (R102): the address pushed is the call's own. -/
def execCall (nnn : BitVec 12) (s : State) : Result :=
  match s.push s.pc with
  | none => raiseFault .stackOverflow (.call nnn) s
  | some t => .next (t.setPc (addrOperand nnn))

/-- `3xnn` `SE Vx, nn` (R103). -/
def execSeImm (x : RegIdx) (nn : Byte) (s : State) : Result := .next (s.skipIf (s.reg x == nn))

/-- `4xnn` `SNE Vx, nn` (R104). -/
def execSneImm (x : RegIdx) (nn : Byte) (s : State) : Result := .next (s.skipIf (s.reg x != nn))

/-- `5xy0` `SE Vx, Vy` (R105). -/
def execSeReg (x y : RegIdx) (s : State) : Result := .next (s.skipIf (s.reg x == s.reg y))

/-- `9xy0` `SNE Vx, Vy` (R106). -/
def execSneReg (x y : RegIdx) (s : State) : Result := .next (s.skipIf (s.reg x != s.reg y))

end Sys2Proof.Machine
end

