-- ==== Sys2Proof/Machine/Graphics.lean ====
section
/-! DEFINITION. The frame buffer (spec/44_graphics.md). -/

namespace Sys2Proof.Machine

/-- The index of the pixel at a column and a row: row-major, 64 columns (spec/10_state.md R21). -/
def cellIndex (column row : Nat) : Nat := row * 64 + column

/-- The frame buffer and the collision flag while a sprite is drawn. -/
structure Canvas where
  fb : Frame
  collision : Bool
  deriving DecidableEq, Repr

/-- One lit sprite pixel on a cell: a collision if the cell is on; the cell is toggled (R141). -/
def Canvas.toggle (c : Canvas) (k : Nat) : Canvas where
  fb := c.fb ^^^ BitVec.twoPow 2048 k
  collision := c.collision || c.fb.getLsbD k

/-- The sprite pixel of a row byte in column `c`: bit 7 is the leftmost (R141); log entry 7. -/
def spriteBit (row : Byte) (c : Nat) : Bool := row.getLsbD (7 - c)

/-- One row of a sprite from column `vx` on frame row `cy`: columns 0..7, each taken modulo 64 (R141). -/
def Canvas.drawRow (row : Byte) (vx cy : Nat) (canvas : Canvas) : Canvas :=
  (List.range 8).foldl (fun cv c => if spriteBit row c then cv.toggle (cellIndex ((vx + c) % 64) cy) else cv) canvas

/-- The rows of a sprite in order, the first of them on frame row `(vy + r) mod 32` (R141). -/
def Canvas.drawRows (vx vy : Nat) : Nat → List Byte → Canvas → Canvas
  | _, [], canvas => canvas
  | r, row :: rows, canvas => Canvas.drawRows vx vy (r + 1) rows (canvas.drawRow row vx ((vy + r) % 32))

/-- The whole sprite with its top left corner at `(vx, vy)` (R141). -/
def drawSprite (fb : Frame) (vx vy : Nat) (rows : List Byte) : Canvas := Canvas.drawRows vx vy 0 rows ⟨fb, false⟩

/-- `00E0` `CLS` (R140). -/
def execCls (s : State) : Result := .next ({ s with fb := 0, dirty := true } : State).advance

/-- The frame a draw leaves, the frame mark, and the collision flag in `VF` (R141). -/
def State.setCanvas (s : State) (c : Canvas) : State :=
  ({ s with fb := c.fb, dirty := true } : State).setFlag (if c.collision then 1 else 0)

/-- `Dxyn` `DRW Vx, Vy, n` (R141): the coordinates are read before `VF` is written. -/
def execDrw (x y : RegIdx) (n : BitVec 4) (s : State) : Result :=
  if outOfRange s n.toNat then raiseFault .memRange (.drw x y n) s
  else withMem (memReads s (dataBase s) n.toNat) fun rows =>
    .next (s.setCanvas (drawSprite s.fb (s.reg x).toNat (s.reg y).toNat rows)).advance

end Sys2Proof.Machine
end

