-- ==== Sys2Proof/Machine/IndexMemory.lean ====
section
/-! DEFINITION. The index register and memory (spec/43_index_memory.md). -/

namespace Sys2Proof.Machine

/-- `Annn` `LD I, nnn` (R130). -/
def execLdI (nnn : BitVec 12) (s : State) : Result := .next (s.setI (addrOperand nnn)).advance

/-- `Fx1E` `ADD I, Vx` (R131): modulo 2^16, no flag. -/
def execAddI (x : RegIdx) (s : State) : Result := .next (s.setI (s.I + byteOperand (s.reg x))).advance

/-- `Fx29` `LD F, Vx` (R132): the whole of `V[x]` enters the formula; log entry 9. -/
def execLdF (x : RegIdx) (s : State) : Result := .next (s.setI (0x050 + 5 * byteOperand (s.reg x))).advance

/-- Hundreds, tens and units of a byte (R133). -/
def decimalDigits (a : Byte) : List Byte :=
  [truncByte (a.toNat / 100), truncByte (a.toNat / 10 % 10), truncByte (a.toNat % 10)]

/-- `Fx33` `LD B, Vx` (R133). -/
def execLdB (x : RegIdx) (s : State) : Result :=
  if outOfRange s 3 then raiseFault .memRange (.ldB x) s
  else withMem (memWrites (dataBase s) (decimalDigits (s.reg x)) s) fun t => .next t.advance

/-- `I <- trunc_16(I + x + 1)` (R134, R135). -/
def State.advanceI (s : State) (x : RegIdx) : State := s.setI (s.I + BitVec.ofNat 16 (rangeCount x))

/-- `Fx55` `LD [I], Vx` (R134). -/
def execStoreRegs (x : RegIdx) (s : State) : Result :=
  if outOfRange s (rangeCount x) then raiseFault .memRange (.storeRegs x) s
  else withMem (memWrites (dataBase s) (regRange s x) s) fun t => .next (t.advanceI x).advance

/-- `Fx65` `LD Vx, [I]` (R135). -/
def execLoadRegs (x : RegIdx) (s : State) : Result :=
  if outOfRange s (rangeCount x) then raiseFault .memRange (.loadRegs x) s
  else withMem (memReads s (dataBase s) (rangeCount x)) fun bytes => .next ((s.setRegs bytes).advanceI x).advance

end Sys2Proof.Machine
end

