-- ==== Sys2Proof/Machine/KeypadTimers.lean ====
section
/-! DEFINITION. The keypad and the timers (spec/45_keypad_timers.md). -/

namespace Sys2Proof.Machine

/-- `Ex9E` `SKP Vx` (R150). -/
def execSkp (x : RegIdx) (s : State) : Result :=
  match keyOperand s x with
  | none => raiseFault .keyIndex (.skp x) s
  | some pressed => .next (s.skipIf pressed)

/-- `ExA1` `SKNP Vx` (R151). -/
def execSknp (x : RegIdx) (s : State) : Result :=
  match keyOperand s x with
  | none => raiseFault .keyIndex (.sknp x) s
  | some pressed => .next (s.skipIf (!pressed))

/-- `Fx07` `LD Vx, DT` (R152): the value before this step's tick. -/
def execLdVxDt (x : RegIdx) (s : State) : Result := .next (s.setReg x s.delayTimer).advance

/-- `Fx0A` `LD Vx, K` (R153): enters WAITING_FOR_KEY; `pc` stays at the instruction, `key_edge` is neither read nor
cleared. -/
def execLdVxK (x : RegIdx) (s : State) : Result := .next { s with halted := true, keyTarget := x }

/-- `Fx15` `LD DT, Vx` (R154). -/
def execLdDtVx (x : RegIdx) (s : State) : Result := .next ({ s with delayTimer := s.reg x } : State).advance

/-- `Fx18` `LD ST, Vx` (R155). -/
def execLdStVx (x : RegIdx) (s : State) : Result := .next ({ s with soundTimer := s.reg x } : State).advance

end Sys2Proof.Machine
end

