-- ==== Sys2Proof/Machine/Step.lean ====
section
/-! DEFINITION. One step of the core (spec/40_step_cycle.md R90). -/

namespace Sys2Proof.Machine

/-- `Step` (R90): which body runs is decided by the mode at the start (R80). -/
def step (s : State) : Host.Outcome State Fault Refusal :=
  match s.mode with
  | .faulted => .next (faultedStep s)
  | .waitingForKey => .next (waitingStep s)
  | .running =>
    match fetchDecode s with
    | .error o => o
    | .ok i => retire (exec i s)

/-- `s` with the word whose low `nbits` bits are `w`'s stored where `step` fetches its next instruction, at `pc`, in memory
order; log entry 17. -/
def State.withFetchWord (s : State) (nbits w : Nat) : State := s.placeWord (BitVec.ofNat 16 (w % 2 ^ nbits))

end Sys2Proof.Machine
end

