-- ==== Sys2Proof/Machine/HostMoves.lean ====
section
/-! DEFINITION. What the host does between steps (spec/70_reset_and_hazards.md R190, R193, R195, R196): reset, program load,
input levels, the edge flag, the dirty mark; and runs in which host moves and steps alternate in any order. -/

namespace Sys2Proof.Machine

/-- The largest program image, 0x200..0xFFF (spec/00_scope.md R4). -/
def programMax : Nat := 3584

/-- Reset with the given FONTSET table (R190): every element of spec/10_state.md R27 at its reset value. What the core does
not own is not written: the inputs, `key_edge`, and the model's own count of draws. -/
def State.resetWith (font : Vector Byte 80) (s : State) : State :=
  { State.reset with
    memory := Memory.writeList [] 0x050 font.toList
    keyEdge := s.keyEdge, keys := s.keys, runningIn := s.runningIn, draws := s.draws }

/-- Program load (R193): the image at 0x200 upward, bytes past 3584 dropped. -/
def State.load (program : List Byte) (s : State) : State :=
  { s with memory := s.memory.writeList 0x200 (program.take programMax) }

/-- The launch state of a run (R195): a function of FONTSET, the program image and the free bit `key_edge`. -/
def State.launch (font : Vector Byte 80) (program : List Byte) (edge : Bool) : State :=
  ({ State.reset with keyEdge := edge } : State).resetWith font |>.load program

/-- How far the boot sequence has come (R193, R196). -/
inductive BootPhase where
  /-- Reset, the program not yet loaded. -/
  | awaitingLoad
  /-- Loaded, no step taken. -/
  | loaded
  /-- A step has been taken since reset. -/
  | stepping
  deriving DecidableEq, Repr

/-- The core with what stands around it. -/
structure Bench where
  core : State
  phase : BootPhase
  font : Vector Byte 80
  deriving DecidableEq, Repr

/-- The host's moves that change state (R196). Reads have no effect and are no move. There is no move that clears
`key_edge`, writes a register, `fb` or, but for the load, `memory` (spec/93_implementation_defined.md K17). -/
inductive HostMove where
  | reset
  | load (program : List Byte)
  | setKeys (keys : BitVec 16)
  | setKeyEdge
  | setRunning (running : Bool)
  | clearDirty
  deriving DecidableEq, Repr

/-- One host move (R196). -/
def Bench.move (b : Bench) : HostMove → Host.Outcome Bench Fault Refusal
  | .reset => .next { b with core := b.core.resetWith b.font, phase := .awaitingLoad }
  | .load program =>
    match b.phase with
    | .awaitingLoad => .next { b with core := b.core.load program, phase := .loaded }
    | .loaded | .stepping => .refused .loadOutsideBoot
  | .setKeys keys => .next { b with core := { b.core with keys := keys } }
  | .setKeyEdge => .next { b with core := { b.core with keyEdge := true } }
  | .setRunning running => .next { b with core := { b.core with runningIn := running } }
  | .clearDirty => .next { b with core := { b.core with dirty := false } }

/-- The host invokes a step: "any time after load" (R196). -/
def Bench.step (b : Bench) : Host.Outcome Bench Fault Refusal :=
  match b.phase with
  | .awaitingLoad => .refused .stepBeforeLoad
  | .loaded | .stepping =>
    match Sys2Proof.Machine.step b.core with
    | .next t => .next { b with core := t, phase := .stepping }
    | .fault f => .fault f
    | .refused r => .refused r

/-- What happens next on the bench. -/
inductive Event where
  | move (m : HostMove)
  | step
  deriving DecidableEq, Repr

/-- One event. -/
def Bench.happen (b : Bench) : Event → Host.Outcome Bench Fault Refusal
  | .move m => b.move m
  | .step => b.step

/-- A run: events in order, ending at the first the model has no move for. -/
def Bench.run (b : Bench) : List Event → Host.Outcome Bench Fault Refusal
  | [] => .next b
  | e :: es =>
    match b.happen e with
    | .next c => c.run es
    | .fault f => .fault f
    | .refused r => .refused r

/-- The bench right after the first reset, before the load: `edge` is the free launch bit (R195). -/
def Bench.start (font : Vector Byte 80) (edge : Bool) : Bench :=
  { core := ({ State.reset with keyEdge := edge } : State).resetWith font, phase := .awaitingLoad, font := font }

end Sys2Proof.Machine
end

