-- ==== Sys2Proof/Safety.lean ====
section
/-! DEFINITION. The terms claims use: a good state, an idle state, the invariants of spec/40_step_cycle.md R92, what part of
the state a transition may change, the report of a fault, the pixels a sprite covers. -/

namespace Sys2Proof.Machine

/-- No fault recorded (spec/60_exceptions.md R176): the premise of every claim about a program. -/
def State.good (s : State) : Bool := !s.faulted

/-- The word whose high byte is at `a` (spec/20_memory.md R44). -/
def State.wordAt (s : State) (a : Nat) : Word := wordOfBytes (s.memory.read a) (s.memory.read (a + 1))

/-- The instruction that a running step from here executes, if it gets so far (spec/40_step_cycle.md R82, R83). -/
def State.instrAt (s : State) : Option Instr := if s.fetchable then decodeWord (s.wordAt s.pc.toNat) else none

/-- A state is idle when it is running and the instruction at `pc` is a jump to itself
(spec/70_reset_and_hazards.md R197). -/
def State.Idle (s : State) : Prop := s.mode = .running ∧ ∃ nnn, s.instrAt = some (.jp nnn) ∧ addrOperand nnn = s.pc

/-- What holds between steps (R92, R18, R161), with what makes it inductive: every stack entry is the address of a call. That
`sp <= 16` holds by its type. -/
structure State.Inv (s : State) : Prop where
  memory_wf : s.memory.wf = true
  one_mode : ¬(s.halted = true ∧ s.faulted = true)
  pc_le : s.faulted = false → s.pc.toNat ≤ 0x1002
  stack_le : ∀ (k : Nat) (h : k < 16), (s.stack[k]'h).toNat ≤ 0xFFE
  waits_at_wait : s.halted = true → s.instrAt = some (.ldVxK s.keyTarget)
  no_report : s.faulted = false → s.faultCause = .none ∧ s.faultPc = 0 ∧ s.faultOpcode = 0
  report : s.faulted = true →
    s.faultCause ≠ .none ∧ s.faultPc = s.pc ∧ s.result = .fault s.faultCause ∧
    s.faultOpcode = if s.faultCause = .fetchRange then 0 else s.wordAt s.pc.toNat

/-- The invariant of a bench: the core's, and that the core is running until its first step. -/
structure Bench.Inv (b : Bench) : Prop where
  core : b.core.Inv
  boot : b.phase ≠ .stepping → b.core.mode = .running

/-- The parts of the state a frame speaks of. -/
inductive Part where
  | regs
  | index
  | pc
  | stack
  | delayTimer
  | soundTimer
  | keyWait
  | memory
  | frame
  | dirty
  | faultReport
  | keyEdge
  | inputs
  | result
  | draws
  deriving DecidableEq, Repr

/-- A part is the same before and after. -/
def Kept (p : Part) (s t : State) : Prop :=
  match p with
  | .regs => ∀ z, t.reg z = s.reg z
  | .index => t.I = s.I
  | .pc => t.pc = s.pc
  | .stack => t.sp = s.sp ∧ t.stack = s.stack
  | .delayTimer => t.delayTimer = s.delayTimer
  | .soundTimer => t.soundTimer = s.soundTimer
  | .keyWait => t.halted = s.halted ∧ t.keyTarget = s.keyTarget
  | .memory => ∀ a, t.memory.read a = s.memory.read a
  | .frame => t.fb = s.fb
  | .dirty => t.dirty = s.dirty
  | .faultReport =>
    t.faulted = s.faulted ∧ t.faultCause = s.faultCause ∧ t.faultPc = s.faultPc ∧ t.faultOpcode = s.faultOpcode
  | .keyEdge => t.keyEdge = s.keyEdge
  | .inputs => t.keys = s.keys ∧ t.runningIn = s.runningIn
  | .result => t.result = s.result
  | .draws => t.draws = s.draws

/-- Every part but the named ones is the same before and after. -/
def OnlyChanges (ps : List Part) (s t : State) : Prop := ∀ p, p ∉ ps → Kept p s t

/-- `t` is `s` with the fault taken (spec/60_exceptions.md R161): the report and the step's result, and nothing else. -/
def FaultReported (c : FaultCause) (opcode : Word) (s t : State) : Prop :=
  t.faulted = true ∧ t.faultCause = c ∧ t.faultPc = s.pc ∧ t.faultOpcode = opcode ∧ t.result = .fault c ∧
  OnlyChanges [.faultReport, .result] s t

/-- The fault an instruction raises of its own, from the table of spec/60_exceptions.md R163. -/
def ownFault (i : Instr) (s : State) : Option FaultCause :=
  match i with
  | .ret => if s.sp.val = 0 then some .stackUnderflow else none
  | .call _ => if s.sp.val = 16 then some .stackOverflow else none
  | .drw _ _ n => if n.toNat > 0 ∧ s.I.toNat + n.toNat - 1 > 0xFFF then some .memRange else none
  | .ldB _ => if s.I.toNat + 2 > 0xFFF then some .memRange else none
  | .storeRegs x | .loadRegs x => if s.I.toNat + x.toNat > 0xFFF then some .memRange else none
  | .skp x | .sknp x => if (s.reg x).toNat > 0x0F then some .keyIndex else none
  | .cls | .jp _ | .seImm _ _ | .sneImm _ _ | .seReg _ _ | .ldImm _ _ | .addImm _ _ | .ldReg _ _ | .orReg _ _ | .andReg _ _
  | .xorReg _ _ | .addReg _ _ | .sub _ _ | .shr _ _ | .subn _ _ | .shl _ _ | .sneReg _ _ | .ldI _ | .rnd _ _ | .ldVxDt _
  | .ldVxK _ | .ldDtVx _ | .ldStVx _ | .addI _ | .ldF _ => none

/-- The pixel at column `cx`, row `cy` (spec/10_state.md R21). -/
def State.pixel (s : State) (cx cy : Nat) : Bool := s.fb.getLsbD (cellIndex cx cy)

/-- A lit pixel of the `n`-row sprite at `I`, placed at `(vx, vy)` with wrap-around, falls on column `cx`, row `cy`
(spec/44_graphics.md R141). -/
def SpriteCovers (s : State) (vx vy n cx cy : Nat) : Prop :=
  ∃ r c, r < n ∧ c < 8 ∧ (vx + c) % 64 = cx ∧ (vy + r) % 32 = cy ∧
    (s.memory.read (s.I.toNat + r)).getLsbD (7 - c) = true

/-- The instruction's flag goes to `VF` (the table of spec/10_state.md R11). -/
def writesFlag (i : Instr) : Bool :=
  match i with
  | .addReg _ _ | .sub _ _ | .shr _ _ | .subn _ _ | .shl _ _ | .drw _ _ _ => true
  | .cls | .ret | .jp _ | .call _ | .seImm _ _ | .sneImm _ _ | .seReg _ _ | .ldImm _ _ | .addImm _ _ | .ldReg _ _
  | .orReg _ _ | .andReg _ _ | .xorReg _ _ | .sneReg _ _ | .ldI _ | .rnd _ _ | .skp _ | .sknp _ | .ldVxDt _ | .ldVxK _
  | .ldDtVx _ | .ldStVx _ | .addI _ | .ldF _ | .ldB _ | .storeRegs _ | .loadRegs _ => false

/-- The instruction names register `z` as a destination of its result (the table of spec/10_state.md R28). -/
def writesReg (i : Instr) (z : RegIdx) : Bool :=
  match i with
  | .ldImm x _ | .addImm x _ | .ldReg x _ | .orReg x _ | .andReg x _ | .xorReg x _ | .addReg x _ | .sub x _ | .shr x _
  | .subn x _ | .shl x _ | .rnd x _ | .ldVxDt x => z == x
  | .loadRegs x => decide (z.toNat ≤ x.toNat)
  | .cls | .ret | .jp _ | .call _ | .seImm _ _ | .sneImm _ _ | .seReg _ _ | .sneReg _ _ | .ldI _ | .drw _ _ _ | .skp _
  | .sknp _ | .ldVxK _ | .ldDtVx _ | .ldStVx _ | .addI _ | .ldF _ | .ldB _ | .storeRegs _ => false

end Sys2Proof.Machine
end

