-- ==== Sys2Proof/Certificates/Slice0/Obligations.lean ====
section
/-! DEFINITION. The statements for the provers. Each docstring names the rule of spec/ it formalises; a statement that rests on
a decision of the spec's own (spec/92_eei_decisions.md) or of the model's names it. -/

open Sys2Proof Sys2Proof.Machine

/-! ### Encoding -/

/-- R61, R62, R65: no bit of an encoding is dropped; every instruction, with every operand at every value. -/
def Obligations.EncodeThenDecodeIsIdentity : Prop := ∀ i : Instr, decodeWord (encode i) = some i

/-- R64, R65 (exact matching by decision D2, log entry 20): a decoded word is its instruction's encoding. For `8xy6` and `8xyE`
this is the model's choice: R63 and R68 make their `y` a don't-care, and the syntax keeps it (log entry 18). -/
def Obligations.DecodeThenEncodeIsIdentity : Prop := ∀ (w : Word) (i : Instr), decodeWord w = some i → encode i = w

/-- R64, R65: a row of the opcode map accepts a word exactly when the decoder reads that row's instruction from it. -/
def Obligations.DecoderFollowsOpcodeMap : Prop :=
  ∀ (w : Word), ∀ r ∈ opcodeMap, (r.accepts w = true ↔ ∃ i, decodeWord w = some i ∧ i.mnemonic = r.mnemonic)

/-- R44, R60: the bytes of an instruction, high byte first, decode to it and leave the rest of the stream. -/
def Obligations.EncodedBytesDecode : Prop :=
  ∀ (i : Instr) (rest : List Byte), decodeBytes (encodeBytes i ++ rest) = .ok (i, rest)

/-- Words written out from R65 and from the vectors of spec/95_test_vectors.md sections 2.1 to 2.6. That 0xB123 is no
instruction is decision D1, that 0x5121 and 0x812F are none is decision D2 (log entry 20). -/
def Obligations.SampleWordsDecode : Prop :=
  decodeWord 0x00EE = some .ret ∧ decodeWord 0x220A = some (.call 0x20A) ∧ decodeWord 0x6A2B = some (.ldImm 0xA 0x2B) ∧
  decodeWord 0x8124 = some (.addReg 1 2) ∧ decodeWord 0xA2F0 = some (.ldI 0x2F0) ∧ decodeWord 0xF255 = some (.storeRegs 2) ∧
  decodeWord 0xD014 = some (.drw 0 1 4) ∧ decodeWord 0xE29E = some (.skp 2) ∧ decodeWord 0xF20A = some (.ldVxK 2) ∧
  decodeWord 0x0000 = none ∧ decodeWord 0xB123 = none ∧ decodeWord 0x5121 = none ∧ decodeWord 0x812F = none

/-! ### The step -/

/-- R81 to R87: a running step that fetches and decodes an instruction is that instruction's execution, which answers a next
state also where it faults (the model's choice, log entry 1). Where a fault was raised that state is the step's answer, with no
tick (decision D5); else both timers tick, the step returns `Ok(running_in)` (decision D18), and nothing else changes. -/
def Obligations.RunningStepExecutesFetchedInstruction : Prop :=
  ∀ (s : State) (i : Instr), s.mode = .running → s.instrAt = some i →
    ∃ t u, exec i s = .next t ∧ step s = .next u ∧ (t.faulted = true → u = t) ∧
      (t.faulted = false → u = t.finish ∧ u.delayTimer.toNat = t.delayTimer.toNat - 1 ∧
        u.soundTimer.toNat = t.soundTimer.toNat - 1 ∧ u.result = .ok s.runningIn ∧
        OnlyChanges [.delayTimer, .soundTimer, .result] t u)

/-- R43, R82, R161 (decisions D4, D5): a running step with `pc > 0xFFE` faults FETCH_RANGE and reports the word 0x0000. -/
def Obligations.FetchOutsideMemoryFaults : Prop :=
  ∀ s : State, s.mode = .running → s.pc.toNat > 0xFFE →
    ∃ t, step s = .next t ∧ FaultReported .fetchRange 0x0000 s t

/-- R67, R83, R161 (decisions D1, D2, D4, D5): a running step that fetches an illegal word faults ILLEGAL_OPCODE and reports
it. -/
def Obligations.IllegalWordFaults : Prop :=
  ∀ s : State, s.mode = .running → s.pc.toNat ≤ 0xFFE → decodeWord (s.wordAt s.pc.toNat) = none →
    ∃ t, step s = .next t ∧ FaultReported .illegalOpcode (s.wordAt s.pc.toNat) s t

/-- R88: a waiting step that finds the edge flag set and key `k` the lowest key down consumes the flag, stores `k`, advances
`pc` by 2, returns to RUNNING, and ticks. -/
def Obligations.WaitingStepResumesWithLowestKey : Prop :=
  ∀ (s : State) (k : Nat), s.mode = .waitingForKey → s.keyEdge = true → k < 16 → s.keys.getLsbD k = true →
    (∀ j < k, s.keys.getLsbD j = false) →
    ∃ t, step s = .next t ∧ (t.reg s.keyTarget).toNat = k ∧ (∀ z, z ≠ s.keyTarget → t.reg z = s.reg z) ∧
      t.pc = s.pc + 2 ∧ t.mode = .running ∧ t.keyTarget = s.keyTarget ∧ t.keyEdge = false ∧
      t.delayTimer.toNat = s.delayTimer.toNat - 1 ∧ t.soundTimer.toNat = s.soundTimer.toNat - 1 ∧
      t.result = .ok s.runningIn ∧
      OnlyChanges [.regs, .pc, .keyWait, .keyEdge, .delayTimer, .soundTimer, .result] s t

/-- R88 (the empty case is decision D12): a waiting step without the edge flag, or with no key down, keeps waiting; the flag
is clear afterwards and the timers have ticked. -/
def Obligations.WaitingStepWithoutKeyKeepsWaiting : Prop :=
  ∀ s : State, s.mode = .waitingForKey → (s.keyEdge = false ∨ s.keys = 0) →
    ∃ t, step s = .next t ∧ t.mode = .waitingForKey ∧ t.keyEdge = false ∧
      t.delayTimer.toNat = s.delayTimer.toNat - 1 ∧ t.soundTimer.toNat = s.soundTimer.toNat - 1 ∧
      t.result = .ok s.runningIn ∧ OnlyChanges [.keyEdge, .delayTimer, .soundTimer, .result] s t

/-- R89 (decisions D3, D5): a step in FAULTED changes nothing and returns the same fault again. -/
def Obligations.FaultedStepChangesNothing : Prop :=
  ∀ s : State, s.mode = .faulted →
    ∃ t, step s = .next t ∧ t.mode = .faulted ∧ t.result = .fault s.faultCause ∧ OnlyChanges [.result] s t

/-- R80, R87: the step is total: every state, reachable or not, has a next state, with a result `Ok(running_in)` or
`Fault(cause)`; in particular no access guard is ever reached. The field `result` is the model's form of the result (log
entry 1). -/
def Obligations.EveryStepAnswersNextState : Prop :=
  ∀ s : State, ∃ t, step s = .next t ∧
    t.result = if t.faulted then .fault t.faultCause else .ok s.runningIn

/-- R170 (not in a faulting step by decision D5): the tick runs once at the end of every running step that does not fault,
after the instruction's own effect, and of every waiting step; not in a faulting step nor in FAULTED. -/
def Obligations.TimersTickOncePerUnfaultedStep : Prop :=
  ∀ s t : State, step s = .next t →
    (s.mode = .faulted → t.delayTimer = s.delayTimer ∧ t.soundTimer = s.soundTimer) ∧
    (s.mode = .waitingForKey →
      t.delayTimer.toNat = s.delayTimer.toNat - 1 ∧ t.soundTimer.toNat = s.soundTimer.toNat - 1) ∧
    (s.mode = .running → t.faulted = true → t.delayTimer = s.delayTimer ∧ t.soundTimer = s.soundTimer) ∧
    (s.mode = .running → t.faulted = false → ∃ i u, s.instrAt = some i ∧ exec i s = .next u ∧
      t.delayTimer.toNat = u.delayTimer.toNat - 1 ∧ t.soundTimer.toNat = u.soundTimer.toNat - 1)

/-- R161, R84 (decision D5): faults are precise: whatever the cause, a running step that faults changes the fault report and
its result, and nothing else, and reports the word it fetched. -/
def Obligations.FaultsArePrecise : Prop :=
  ∀ s t : State, s.mode = .running → step s = .next t → t.faulted = true →
    t.faultCause ≠ .none ∧
    FaultReported t.faultCause (if t.faultCause = .fetchRange then 0x0000 else s.wordAt s.pc.toNat) s t

/-- R163 (KEY_INDEX by decision D7, the report by D4 and D5): every instruction raises the fault of the table under the
table's condition, and otherwise completes with the fault report untouched. -/
def Obligations.InstructionsFaultExactlyByTable : Prop :=
  ∀ (i : Instr) (s : State),
    (∀ c, ownFault i s = some c → ∃ t, exec i s = .next t ∧ FaultReported c (encode i) s t) ∧
    (ownFault i s = none → ∃ t, exec i s = .next t ∧ Kept .faultReport s t ∧ Kept .result s t)

/-- R87 (decision D18): `running_in` is passed through and influences nothing else. -/
def Obligations.RunningSignalPassesThrough : Prop :=
  ∀ (s t : State) (b : Bool), step s = .next t →
    ∃ u, step { s with runningIn := b } = .next u ∧
      u = { t with runningIn := b, result := if t.faulted then t.result else .ok b }

/-! ### Control flow -/

/-- R101. -/
def Obligations.JumpSetsPc : Prop :=
  ∀ (nnn : BitVec 12) (s : State),
    ∃ t, exec (.jp nnn) s = .next t ∧ t.pc.toNat = nnn.toNat ∧ OnlyChanges [.pc] s t

/-- R102: the call's own address is pushed; with 16 entries in use nothing is pushed and the call faults (the report is that
of R161, decisions D4 and D5). -/
def Obligations.CallPushesItsOwnAddress : Prop :=
  ∀ (nnn : BitVec 12) (s : State),
    (s.sp.val = 16 → ∃ t, exec (.call nnn) s = .next t ∧ FaultReported .stackOverflow (encode (.call nnn)) s t) ∧
    (s.sp.val ≠ 16 → ∃ t, exec (.call nnn) s = .next t ∧ t.sp.val = s.sp.val + 1 ∧ t.stack[s.sp.val]? = some s.pc ∧
      (∀ k, k ≠ s.sp.val → t.stack[k]? = s.stack[k]?) ∧ t.pc.toNat = nnn.toNat ∧ OnlyChanges [.pc, .stack] s t)

/-- R100: the popped value plus 2 goes to `pc`, the entry stays in place (decision D17); with an empty stack the return
faults (the report is that of R161, decisions D4 and D5). -/
def Obligations.ReturnPopsAndAddsTwo : Prop :=
  ∀ s : State,
    (s.sp.val = 0 → ∃ t, exec .ret s = .next t ∧ FaultReported .stackUnderflow 0x00EE s t) ∧
    (s.sp.val ≠ 0 → ∃ t a, exec .ret s = .next t ∧ t.sp.val + 1 = s.sp.val ∧ s.stack[t.sp.val]? = some a ∧
      t.pc = a + 2 ∧ t.stack = s.stack ∧ OnlyChanges [.pc, .stack] s t)

/-- R108: a call and the return after it come back to the instruction after the call, at the old depth, with the entries
below untouched. -/
def Obligations.CallThenReturnResumesAfterCall : Prop :=
  ∀ (nnn : BitVec 12) (s : State), s.sp.val ≠ 16 →
    ∃ t u, exec (.call nnn) s = .next t ∧ exec .ret t = .next u ∧ u.pc = s.pc + 2 ∧ u.sp = s.sp ∧
      (∀ k < s.sp.val, u.stack[k]? = s.stack[k]?) ∧ OnlyChanges [.pc, .stack] s u

/-- R103, R104, R105, R106: the four register-compare skips. -/
def Obligations.CompareSkipsMovePcByTwoOrFour : Prop :=
  ∀ (x y : RegIdx) (nn : Byte) (s : State),
    (∃ t, exec (.seImm x nn) s = .next t ∧ t.pc = (if s.reg x = nn then s.pc + 4 else s.pc + 2) ∧
      OnlyChanges [.pc] s t) ∧
    (∃ t, exec (.sneImm x nn) s = .next t ∧ t.pc = (if s.reg x ≠ nn then s.pc + 4 else s.pc + 2) ∧
      OnlyChanges [.pc] s t) ∧
    (∃ t, exec (.seReg x y) s = .next t ∧ t.pc = (if s.reg x = s.reg y then s.pc + 4 else s.pc + 2) ∧
      OnlyChanges [.pc] s t) ∧
    (∃ t, exec (.sneReg x y) s = .next t ∧ t.pc = (if s.reg x ≠ s.reg y then s.pc + 4 else s.pc + 2) ∧
      OnlyChanges [.pc] s t)

/-! ### Arithmetic, logic, random -/

/-- R110, R112: load and add of an immediate; no flag is written. -/
def Obligations.ImmediateLoadAndAdd : Prop :=
  ∀ (x : RegIdx) (nn : Byte) (s : State),
    (∃ t, exec (.ldImm x nn) s = .next t ∧ t.reg x = nn ∧ (∀ z, z ≠ x → t.reg z = s.reg z) ∧ t.pc = s.pc + 2 ∧
      OnlyChanges [.regs, .pc] s t) ∧
    (∃ t, exec (.addImm x nn) s = .next t ∧ (t.reg x).toNat = ((s.reg x).toNat + nn.toNat) % 256 ∧
      (∀ z, z ≠ x → t.reg z = s.reg z) ∧ t.pc = s.pc + 2 ∧ OnlyChanges [.regs, .pc] s t)

/-- R113, R114, R115, R116: copy and the three logical operations; no flag is written. -/
def Obligations.CopyAndLogic : Prop :=
  ∀ (x y : RegIdx) (s : State),
    (∃ t, exec (.ldReg x y) s = .next t ∧ t.reg x = s.reg y ∧ (∀ z, z ≠ x → t.reg z = s.reg z) ∧ t.pc = s.pc + 2 ∧
      OnlyChanges [.regs, .pc] s t) ∧
    (∃ t, exec (.orReg x y) s = .next t ∧ t.reg x = s.reg x ||| s.reg y ∧ (∀ z, z ≠ x → t.reg z = s.reg z) ∧
      t.pc = s.pc + 2 ∧ OnlyChanges [.regs, .pc] s t) ∧
    (∃ t, exec (.andReg x y) s = .next t ∧ t.reg x = s.reg x &&& s.reg y ∧ (∀ z, z ≠ x → t.reg z = s.reg z) ∧
      t.pc = s.pc + 2 ∧ OnlyChanges [.regs, .pc] s t) ∧
    (∃ t, exec (.xorReg x y) s = .next t ∧ t.reg x = s.reg x ^^^ s.reg y ∧ (∀ z, z ≠ x → t.reg z = s.reg z) ∧
      t.pc = s.pc + 2 ∧ OnlyChanges [.regs, .pc] s t)

/-- R117 (with `y` = 0xF by decision D6): the carry goes to `VF` first and the sum modulo 256 to `V[x]` last, so that with
`x` = 0xF the sum remains. -/
def Obligations.AddWritesCarryThenSum : Prop :=
  ∀ (x y : RegIdx) (s : State),
    ∃ t, exec (.addReg x y) s = .next t ∧ (t.reg x).toNat = ((s.reg x).toNat + (s.reg y).toNat) % 256 ∧
      (x ≠ 0xF → t.reg 0xF = if (s.reg x).toNat + (s.reg y).toNat > 255 then 1 else 0) ∧
      (∀ z, z ≠ x → z ≠ 0xF → t.reg z = s.reg z) ∧ t.pc = s.pc + 2 ∧ OnlyChanges [.regs, .pc] s t

/-- R118, R120 (with `y` = 0xF by decision D6): the strict comparison goes to `VF` first and the difference modulo 256 to
`V[x]` last. -/
def Obligations.SubtractsWriteStrictFlagThenDifference : Prop :=
  ∀ (x y : RegIdx) (s : State),
    (∃ t, exec (.sub x y) s = .next t ∧ t.reg x = s.reg x - s.reg y ∧
      (x ≠ 0xF → t.reg 0xF = if (s.reg x).toNat > (s.reg y).toNat then 1 else 0) ∧
      (∀ z, z ≠ x → z ≠ 0xF → t.reg z = s.reg z) ∧ t.pc = s.pc + 2 ∧ OnlyChanges [.regs, .pc] s t) ∧
    (∃ t, exec (.subn x y) s = .next t ∧ t.reg x = s.reg y - s.reg x ∧
      (x ≠ 0xF → t.reg 0xF = if (s.reg y).toNat > (s.reg x).toNat then 1 else 0) ∧
      (∀ z, z ≠ x → z ≠ 0xF → t.reg z = s.reg z) ∧ t.pc = s.pc + 2 ∧ OnlyChanges [.regs, .pc] s t)

/-- R119, R121 (with `x` = 0xF by decision D6): the bit shifted out goes to `VF` first, the shifted `V[x]` to `V[x]` last,
for every `y`. -/
def Obligations.ShiftsWriteBitOutThenResult : Prop :=
  ∀ (x y : RegIdx) (s : State),
    (∃ t, exec (.shr x y) s = .next t ∧ (t.reg x).toNat = (s.reg x).toNat / 2 ∧
      (x ≠ 0xF → (t.reg 0xF).toNat = (s.reg x).toNat % 2) ∧
      (∀ z, z ≠ x → z ≠ 0xF → t.reg z = s.reg z) ∧ t.pc = s.pc + 2 ∧ OnlyChanges [.regs, .pc] s t) ∧
    (∃ t, exec (.shl x y) s = .next t ∧ (t.reg x).toNat = (s.reg x).toNat * 2 % 256 ∧
      (x ≠ 0xF → (t.reg 0xF).toNat = (s.reg x).toNat / 128) ∧
      (∀ z, z ≠ x → z ≠ 0xF → t.reg z = s.reg z) ∧ t.pc = s.pc + 2 ∧ OnlyChanges [.regs, .pc] s t)

/-- R122 (decision D11): the masked random byte. `Config.randomByte` is free and `draws` is the model's own counter (log
entry 2), so this holds for every draw. -/
def Obligations.RandomByteIsMasked : Prop :=
  ∀ (x : RegIdx) (nn : Byte) (s : State),
    ∃ t, exec (.rnd x nn) s = .next t ∧ t.reg x = Config.randomByte s.draws &&& nn ∧ t.reg x &&& ~~~nn = 0 ∧
      (∀ z, z ≠ x → t.reg z = s.reg z) ∧ t.pc = s.pc + 2 ∧ t.draws = s.draws + 1 ∧
      OnlyChanges [.regs, .pc, .draws] s t

/-! ### Index register and memory -/

/-- R130, R131: `I` is loaded, or added to modulo 65536, with no fault and no flag. -/
def Obligations.IndexLoadAndAdd : Prop :=
  ∀ (x : RegIdx) (nnn : BitVec 12) (s : State),
    (∃ t, exec (.ldI nnn) s = .next t ∧ t.I.toNat = nnn.toNat ∧ t.pc = s.pc + 2 ∧ OnlyChanges [.index, .pc] s t) ∧
    (∃ t, exec (.addI x) s = .next t ∧ t.I.toNat = (s.I.toNat + (s.reg x).toNat) % 65536 ∧ t.pc = s.pc + 2 ∧
      OnlyChanges [.index, .pc] s t)

/-- R132 (unmasked by decision D8): the glyph address of the whole `V[x]`; the truncation never acts. -/
def Obligations.FontAddressIsUnmaskedFormula : Prop :=
  ∀ (x : RegIdx) (s : State),
    ∃ t, exec (.ldF x) s = .next t ∧ t.I.toNat = 0x050 + 5 * (s.reg x).toNat ∧ t.pc = s.pc + 2 ∧
      OnlyChanges [.index, .pc] s t

/-- R133: the three decimal digits at `I`, `I + 1`, `I + 2`, or the range fault with no byte written (the report is that of
R161, decisions D4 and D5). -/
def Obligations.DecimalDigitsAreStored : Prop :=
  ∀ (x : RegIdx) (s : State),
    (s.I.toNat + 2 > 0xFFF → ∃ t, exec (.ldB x) s = .next t ∧ FaultReported .memRange (encode (.ldB x)) s t) ∧
    (s.I.toNat + 2 ≤ 0xFFF → ∃ t, exec (.ldB x) s = .next t ∧
      (t.memory.read (dataBase s)).toNat = (s.reg x).toNat / 100 ∧
      (t.memory.read (dataBase s + 1)).toNat = (s.reg x).toNat / 10 % 10 ∧
      (t.memory.read (dataBase s + 2)).toNat = (s.reg x).toNat % 10 ∧
      (∀ a, a < dataBase s ∨ dataBase s + 2 < a → t.memory.read a = s.memory.read a) ∧
      t.pc = s.pc + 2 ∧ OnlyChanges [.memory, .pc] s t)

/-- R134: `V[0]`..`V[x]` at `I` upward and `I` past the block, or the range fault with no byte written (the report is that of
R161, decisions D4 and D5). -/
def Obligations.RegistersAreStored : Prop :=
  ∀ (x : RegIdx) (s : State),
    (s.I.toNat + x.toNat > 0xFFF →
      ∃ t, exec (.storeRegs x) s = .next t ∧ FaultReported .memRange (encode (.storeRegs x)) s t) ∧
    (s.I.toNat + x.toNat ≤ 0xFFF → ∃ t, exec (.storeRegs x) s = .next t ∧
      (∀ z : RegIdx, z.toNat ≤ x.toNat → t.memory.read (dataBase s + z.toNat) = s.reg z) ∧
      (∀ a, a < dataBase s ∨ dataBase s + x.toNat < a → t.memory.read a = s.memory.read a) ∧
      t.I.toNat = s.I.toNat + x.toNat + 1 ∧ t.pc = s.pc + 2 ∧ OnlyChanges [.memory, .index, .pc] s t)

/-- R135: `V[0]`..`V[x]` from `I` upward and `I` past the block, or the range fault with no register written (the report is
that of R161, decisions D4 and D5). -/
def Obligations.RegistersAreLoaded : Prop :=
  ∀ (x : RegIdx) (s : State),
    (s.I.toNat + x.toNat > 0xFFF →
      ∃ t, exec (.loadRegs x) s = .next t ∧ FaultReported .memRange (encode (.loadRegs x)) s t) ∧
    (s.I.toNat + x.toNat ≤ 0xFFF → ∃ t, exec (.loadRegs x) s = .next t ∧
      (∀ z : RegIdx, z.toNat ≤ x.toNat → t.reg z = s.memory.read (dataBase s + z.toNat)) ∧
      (∀ z : RegIdx, x.toNat < z.toNat → t.reg z = s.reg z) ∧
      t.I.toNat = s.I.toNat + x.toNat + 1 ∧ t.pc = s.pc + 2 ∧ OnlyChanges [.regs, .index, .pc] s t)

/-- R50, R47: a store is seen by the very next fetch: when the instruction after an `Fx55` lies inside the block it stores,
the next step decodes the stored registers. -/
def Obligations.StoredWordIsFetchedNext : Prop :=
  ∀ (s : State) (x z z' : RegIdx), s.mode = .running → s.instrAt = some (.storeRegs x) →
    s.I.toNat + x.toNat ≤ 0xFFF → z'.toNat = z.toNat + 1 → z'.toNat ≤ x.toNat →
    s.pc.toNat + 2 = s.I.toNat + z.toNat →
    ∃ t, step s = .next t ∧ t.mode = .running ∧ t.instrAt = decodeWord (wordOfBytes (s.reg z) (s.reg z'))

/-! ### Graphics -/

/-- R140. -/
def Obligations.ClearTurnsEveryPixelOff : Prop :=
  ∀ s : State, ∃ t, exec .cls s = .next t ∧ (∀ k, t.fb.getLsbD k = false) ∧ t.dirty = true ∧ t.pc = s.pc + 2 ∧
    OnlyChanges [.frame, .dirty, .pc] s t

/-- R141 (bit 7 leftmost by decision D9, coordinates read before `VF` is written by decision D6): each pixel the placed
sprite covers is toggled, every other is kept, `VF` says whether a covered pixel was on, and `dirty` is set. -/
def Obligations.DrawTogglesCoveredPixels : Prop :=
  ∀ (x y : RegIdx) (n : BitVec 4) (s : State), (n.toNat > 0 → s.I.toNat + n.toNat - 1 ≤ 0xFFF) →
    ∃ t, exec (.drw x y n) s = .next t ∧
      (∀ cx < 64, ∀ cy < 32,
        (SpriteCovers s (s.reg x).toNat (s.reg y).toNat n.toNat cx cy → t.pixel cx cy = !s.pixel cx cy) ∧
        (¬SpriteCovers s (s.reg x).toNat (s.reg y).toNat n.toNat cx cy → t.pixel cx cy = s.pixel cx cy)) ∧
      ((∃ cx < 64, ∃ cy < 32, SpriteCovers s (s.reg x).toNat (s.reg y).toNat n.toNat cx cy ∧ s.pixel cx cy = true) →
        t.reg 0xF = 1) ∧
      (¬(∃ cx < 64, ∃ cy < 32, SpriteCovers s (s.reg x).toNat (s.reg y).toNat n.toNat cx cy ∧ s.pixel cx cy = true) →
        t.reg 0xF = 0) ∧
      (∀ z, z ≠ 0xF → t.reg z = s.reg z) ∧ t.dirty = true ∧ t.pc = s.pc + 2 ∧
      OnlyChanges [.regs, .frame, .dirty, .pc] s t

/-- R141, R42 (decisions D4, D5, D16): a sprite that does not lie wholly in memory faults before anything is drawn. -/
def Obligations.DrawOutsideMemoryFaults : Prop :=
  ∀ (x y : RegIdx) (n : BitVec 4) (s : State), n.toNat > 0 → s.I.toNat + n.toNat - 1 > 0xFFF →
    ∃ t, exec (.drw x y n) s = .next t ∧ FaultReported .memRange (encode (.drw x y n)) s t

/-- R142 (the drawing as R141 has it: bit 7 leftmost by decision D9, operands read first by decision D6): drawing is an
involution: the same sprite twice at the same place restores the frame, and the second draw reports a collision exactly when
the first turned some pixel on. (With `x` or `y` = 0xF the first draw's flag moves the second.) -/
def Obligations.DrawTwiceRestoresFrame : Prop :=
  ∀ (x y : RegIdx) (n : BitVec 4) (s : State), x ≠ 0xF → y ≠ 0xF → (n.toNat > 0 → s.I.toNat + n.toNat - 1 ≤ 0xFFF) →
    ∃ t u, exec (.drw x y n) s = .next t ∧ exec (.drw x y n) t = .next u ∧ u.fb = s.fb ∧
      ((∃ cx < 64, ∃ cy < 32, s.pixel cx cy = false ∧ t.pixel cx cy = true) → u.reg 0xF = 1) ∧
      (¬(∃ cx < 64, ∃ cy < 32, s.pixel cx cy = false ∧ t.pixel cx cy = true) → u.reg 0xF = 0)

/-! ### Keypad and timers -/

/-- R150, R151 for a register that names a key: the level sampled decides the skip; the edge flag is not touched. -/
def Obligations.KeySkipsFollowKeyLevel : Prop :=
  ∀ (x : RegIdx) (s : State), (s.reg x).toNat ≤ 0x0F →
    (∃ t, exec (.skp x) s = .next t ∧
      t.pc = (if s.keys.getLsbD (s.reg x).toNat = true then s.pc + 4 else s.pc + 2) ∧ OnlyChanges [.pc] s t) ∧
    (∃ t, exec (.sknp x) s = .next t ∧
      t.pc = (if s.keys.getLsbD (s.reg x).toNat = false then s.pc + 4 else s.pc + 2) ∧ OnlyChanges [.pc] s t)

/-- R150, R151 (decision D7; the report by D4 and D5): a register above 0x0F names no key and faults KEY_INDEX. -/
def Obligations.KeyIndexAboveFifteenFaults : Prop :=
  ∀ (x : RegIdx) (s : State), (s.reg x).toNat > 0x0F →
    (∃ t, exec (.skp x) s = .next t ∧ FaultReported .keyIndex (encode (.skp x)) s t) ∧
    (∃ t, exec (.sknp x) s = .next t ∧ FaultReported .keyIndex (encode (.sknp x)) s t)

/-- R153: the core starts to wait, `pc` stays, the register is not written yet, the edge flag is not touched. -/
def Obligations.KeyWaitIsEntered : Prop :=
  ∀ (x : RegIdx) (s : State),
    ∃ t, exec (.ldVxK x) s = .next t ∧ t.halted = true ∧ t.keyTarget = x ∧ t.pc = s.pc ∧ OnlyChanges [.keyWait] s t

/-- R152: the value read is the one before this step's tick, and after the step the timer is one less or still 0. -/
def Obligations.DelayTimerIsReadBeforeTick : Prop :=
  ∀ (x : RegIdx) (s : State),
    (∃ t, exec (.ldVxDt x) s = .next t ∧ t.reg x = s.delayTimer ∧ (∀ z, z ≠ x → t.reg z = s.reg z) ∧
      t.pc = s.pc + 2 ∧ OnlyChanges [.regs, .pc] s t) ∧
    (s.mode = .running → s.instrAt = some (.ldVxDt x) →
      ∃ t, step s = .next t ∧ t.reg x = s.delayTimer ∧ t.delayTimer.toNat = s.delayTimer.toNat - 1)

/-- R154, R155: a timer is set from `V[x]`, and the tick of the same step leaves `V[x] - 1`, or 0. -/
def Obligations.TimersAreSetThenTicked : Prop :=
  ∀ (x : RegIdx) (s : State),
    (∃ t, exec (.ldDtVx x) s = .next t ∧ t.delayTimer = s.reg x ∧ t.pc = s.pc + 2 ∧
      OnlyChanges [.delayTimer, .pc] s t) ∧
    (∃ t, exec (.ldStVx x) s = .next t ∧ t.soundTimer = s.reg x ∧ t.pc = s.pc + 2 ∧
      OnlyChanges [.soundTimer, .pc] s t) ∧
    (s.mode = .running → s.instrAt = some (.ldDtVx x) →
      ∃ t, step s = .next t ∧ t.delayTimer.toNat = (s.reg x).toNat - 1) ∧
    (s.mode = .running → s.instrAt = some (.ldStVx x) →
      ∃ t, step s = .next t ∧ t.soundTimer.toNat = (s.reg x).toNat - 1)

/-! ### Who writes what (R28) -/

/-- R11, R28: an instruction changes a `V` register only as its named destination, or `VF` as its flag. -/
def Obligations.RegistersChangeOnlyByNameOrFlag : Prop :=
  ∀ (i : Instr) (s t : State) (z : RegIdx), exec i s = .next t → t.reg z ≠ s.reg z →
    writesReg i z = true ∨ (z = 0xF ∧ writesFlag i = true)

/-- R51, R28: a step changes a byte of memory only by `Fx33` or `Fx55`, inside the block it stores. -/
def Obligations.MemoryChangesOnlyByStores : Prop :=
  ∀ (s t : State) (a : Nat), step s = .next t → t.memory.read a ≠ s.memory.read a →
    s.mode = .running ∧ ∃ x : RegIdx,
      (s.instrAt = some (.ldB x) ∧ dataBase s ≤ a ∧ a ≤ dataBase s + 2) ∨
      (s.instrAt = some (.storeRegs x) ∧ dataBase s ≤ a ∧ a ≤ dataBase s + x.toNat)

/-- R143, R22, R28: a step changes the frame buffer only by `00E0` or `Dxyn`, which set `dirty`; no step clears it. -/
def Obligations.FrameChangesOnlyByGraphics : Prop :=
  ∀ s t : State, step s = .next t →
    (s.dirty = true → t.dirty = true) ∧
    (t.fb ≠ s.fb ∨ t.dirty ≠ s.dirty → s.mode = .running ∧ t.dirty = true ∧
      (s.instrAt = some .cls ∨ ∃ x y n, s.instrAt = some (.drw x y n)))

/-- R14, R28, R52: a step moves the stack pointer only by a call or a return, one entry at a time, and writes an entry only
by a call, at the old stack pointer. -/
def Obligations.StackMovesOnlyByCallAndReturn : Prop :=
  ∀ s t : State, step s = .next t →
    (t.sp ≠ s.sp → s.mode = .running ∧
      ((∃ nnn, s.instrAt = some (.call nnn) ∧ t.sp.val = s.sp.val + 1) ∨
        (s.instrAt = some .ret ∧ t.sp.val + 1 = s.sp.val))) ∧
    (∀ k, t.stack[k]? ≠ s.stack[k]? →
      s.mode = .running ∧ (∃ nnn, s.instrAt = some (.call nnn)) ∧ k = s.sp.val ∧ t.stack[k]? = some s.pc)

/-- R24: the core clears `key_edge` in a waiting step and at no other time, and never sets it. -/
def Obligations.EdgeFlagIsConsumedOnlyWhileWaiting : Prop :=
  ∀ s t : State, step s = .next t → t.keyEdge = if s.mode = .waitingForKey then false else s.keyEdge

/-- R16, R92: `key_target` is written by `Fx0A` only, with its `x`. -/
def Obligations.KeyTargetIsWrittenOnlyByKeyWait : Prop :=
  ∀ s t : State, step s = .next t →
    (∀ x, s.mode = .running → s.instrAt = some (.ldVxK x) → t.keyTarget = x) ∧
    ((¬∃ x, s.mode = .running ∧ s.instrAt = some (.ldVxK x)) → t.keyTarget = s.keyTarget)

/-- R92, R88 (the empty case by decision D12, log entry 11): the transitions of the three modes, all of them and no other.
That FAULTED stays is decision D3 (log entry 1); which words are instructions is D1 and D2 (log entry 20), and which
instructions fault is D7 and D16 (log entries 10, 12). -/
def Obligations.ModeTransitionsAreExactly : Prop :=
  ∀ s t : State, step s = .next t →
    (s.mode = .faulted → t.mode = .faulted) ∧
    (s.mode = .waitingForKey → t.mode = if s.keyEdge = true ∧ s.keys ≠ 0 then .running else .waitingForKey) ∧
    (s.mode = .running →
      (t.mode = .waitingForKey ↔ ∃ x, s.instrAt = some (.ldVxK x)) ∧
      (t.mode = .faulted ↔ ∀ i, s.instrAt = some i → (ownFault i s).isSome = true))

/-- R197 (idle is a notion of decision D23): from an idle state every further step changes only the timers (and the step's
result). -/
def Obligations.IdleStepChangesOnlyTimers : Prop :=
  ∀ s : State, s.Idle → ∃ t, step s = .next t ∧ t.Idle ∧ OnlyChanges [.delayTimer, .soundTimer, .result] s t

/-! ### What cannot be learnt -/

/-- R15: no instruction reads `sound_timer`: with another value in it, execution is the same but for that timer. -/
def Obligations.SoundTimerIsReadByNoInstruction : Prop :=
  ∀ (i : Instr) (s t : State) (v : Byte), exec i s = .next t →
    ∃ u, exec i { s with soundTimer := v } = .next u ∧ u = { t with soundTimer := u.soundTimer } ∧
      ((∀ x, i ≠ .ldStVx x) → u.soundTimer = v) ∧ ((∃ x, i = .ldStVx x) → u.soundTimer = t.soundTimer)

/-- R14 (decision D17): what a stack entry at or above `sp` holds can be observed by no instruction. -/
def Obligations.StaleStackEntriesAreUnobservable : Prop :=
  ∀ (i : Instr) (s t : State) (other : Vector Word 16), (∀ k < s.sp.val, other[k]? = s.stack[k]?) →
    exec i s = .next t →
    ∃ u, exec i { s with stack := other } = .next u ∧ u = { t with stack := u.stack } ∧
      ∀ k < t.sp.val, u.stack[k]? = t.stack[k]?

/-! ### Reset, load, invariants -/

/-- R27, R190 (the values of `fb`, `dirty`, `key_target` and the fault registers, and that reset can be repeated, by decision
D13): reset from any state, with any FONTSET. -/
def Obligations.ResetLeavesTheListedValues : Prop :=
  ∀ (font : Vector Byte 80) (s : State),
    (∀ z, (s.resetWith font).reg z = 0) ∧ (s.resetWith font).I = 0 ∧ (s.resetWith font).pc = 0x0200 ∧
    (s.resetWith font).sp.val = 0 ∧ (∀ k < 16, (s.resetWith font).stack[k]? = some 0) ∧
    (s.resetWith font).delayTimer = 0 ∧ (s.resetWith font).soundTimer = 0 ∧ (s.resetWith font).halted = false ∧
    (s.resetWith font).keyTarget = 0 ∧ (s.resetWith font).fb = 0 ∧ (s.resetWith font).dirty = false ∧
    (s.resetWith font).faulted = false ∧ (s.resetWith font).faultCause = .none ∧ (s.resetWith font).faultPc = 0 ∧
    (s.resetWith font).faultOpcode = 0 ∧ (s.resetWith font).keyEdge = s.keyEdge ∧
    (∀ j (h : j < 80), (s.resetWith font).memory.read (0x050 + j) = font[j]) ∧
    (∀ a, a < 0x050 ∨ 0x09F < a → (s.resetWith font).memory.read a = 0)

/-- R191: the core comes out of reset RUNNING at 0x200. -/
def Obligations.ResetRunsAt0x200 : Prop :=
  ∀ (font : Vector Byte 80) (s : State), (s.resetWith font).mode = .running ∧ (s.resetWith font).pc = 0x0200

/-- R27, R195: `State.reset` is the launch with the default FONTSET and an empty program. The default FONTSET (log entry 3),
the edge flag false (log entry 5) and the input values (log entry 4) are the model's choice. -/
def Obligations.ResetIsTheEmptyLaunch : Prop := State.launch fontset [] false = State.reset

/-- R193 (decision D15): the image is laid at 0x200 upward, bytes past 3584 dropped, nothing else touched; once a step has
been taken there is no load. -/
def Obligations.ProgramLoadLaysTheImage : Prop :=
  (∀ (program : List Byte) (s : State),
    (∀ j b, j < 3584 → program[j]? = some b → (s.load program).memory.read (0x200 + j) = b) ∧
    (∀ a, a < 0x200 ∨ 0x200 + min program.length 3584 ≤ a →
      (s.load program).memory.read a = s.memory.read a) ∧
    OnlyChanges [.memory] s (s.load program)) ∧
  (∀ (program : List Byte) (b : Bench), b.phase = .stepping → b.move (.load program) = .refused .loadOutsideBoot)

/-- R92, R18, R161: the invariant holds at reset. -/
def Obligations.ResetMeetsInvariant : Prop := State.reset.Inv

/-- R92, R18, R161: every step keeps the invariant. -/
def Obligations.EveryStepKeepsInvariant : Prop := ∀ s t : State, s.Inv → step s = .next t → t.Inv

/-- R196, R193 (decisions D15, D22; log entry 19): every host move keeps the invariant of the bench. -/
def Obligations.EveryHostMoveKeepsInvariant : Prop :=
  ∀ (b c : Bench) (m : HostMove), b.Inv → b.move m = .next c → c.Inv

/-- R92, R195, R196 (decisions D15, D22; log entry 19): under every host behaviour, with every FONTSET, program and edge
flag, the invariant holds between steps, and no run stops outside the state. -/
def Obligations.EveryRunMeetsInvariant : Prop :=
  ∀ (font : Vector Byte 80) (edge : Bool) (es : List Event),
    (∀ b, (Bench.start font edge).run es = .next b → b.Inv) ∧ (∀ f, (Bench.start font edge).run es ≠ .fault f)
end

