-- ==== Sys2Proof/Laws/Encoding.lean ====
section
/-! SUPPORT. Laws of the encoding: the fields of a word built from fields, a word built from its own fields, the masks of the
opcode map, well-formedness. -/

namespace Sys2Proof

/-- Every instruction is well formed: the types of its operands hold the ranges (spec/30_encoding.md R63). -/
theorem Instr.wellFormed_eq_true (i : Instr) : i.wellFormed = true := by
  have h4 : ∀ x : BitVec 4, x.toNat ≤ 15 := fun x => by have := x.isLt; omega
  have h8 : ∀ x : BitVec 8, x.toNat ≤ 255 := fun x => by have := x.isLt; omega
  have h12 : ∀ x : BitVec 12, x.toNat ≤ 4095 := fun x => by have := x.isLt; omega
  cases i <;>
    simp [Instr.wellFormed, WellFormed.isReg, WellFormed.isImm, WellFormed.isAddr, WellFormed.isCount, h4, h8, h12]

/-! ### The fields of a built word -/

variable (op x y n : BitVec 4) (nn : BitVec 8) (nnn : BitVec 12) (w : Word)

@[simp] theorem fieldOp_formNNN : fieldOp (formNNN op nnn) = op := BitVec.extractLsb'_append_eq_left

@[simp] theorem fieldNNN_formNNN : fieldNNN (formNNN op nnn) = nnn := BitVec.extractLsb'_append_eq_right

@[simp] theorem fieldOp_formXNN : fieldOp (formXNN op x nn) = op := BitVec.extractLsb'_append_eq_left

@[simp] theorem fieldX_formXNN : fieldX (formXNN op x nn) = x := by
  rw [fieldX, formXNN, BitVec.extractLsb'_append_eq_of_add_le (by decide), BitVec.extractLsb'_append_eq_left]

@[simp] theorem fieldNN_formXNN : fieldNN (formXNN op x nn) = nn := by
  rw [fieldNN, formXNN, BitVec.extractLsb'_append_eq_of_add_le (by decide), BitVec.extractLsb'_append_eq_right]

@[simp] theorem fieldOp_formXYN : fieldOp (formXYN op x y n) = op := BitVec.extractLsb'_append_eq_left

@[simp] theorem fieldX_formXYN : fieldX (formXYN op x y n) = x := by
  rw [fieldX, formXYN, BitVec.extractLsb'_append_eq_of_add_le (by decide), BitVec.extractLsb'_append_eq_left]

@[simp] theorem fieldY_formXYN : fieldY (formXYN op x y n) = y := by
  rw [fieldY, formXYN, BitVec.extractLsb'_append_eq_of_add_le (by decide),
    BitVec.extractLsb'_append_eq_of_add_le (by decide), BitVec.extractLsb'_append_eq_left]

@[simp] theorem fieldN_formXYN : fieldN (formXYN op x y n) = n := by
  rw [fieldN, formXYN, BitVec.extractLsb'_append_eq_of_add_le (by decide),
    BitVec.extractLsb'_append_eq_of_add_le (by decide), BitVec.extractLsb'_append_eq_right]

/-! ### A word from its own fields -/

theorem formNNN_fields : formNNN (fieldOp w) (fieldNNN w) = w := by
  unfold formNNN fieldOp fieldNNN
  rw [BitVec.extractLsb'_append_extractLsb'_eq_extractLsb' (by decide)]
  exact BitVec.extractLsb'_eq_self

theorem formXNN_fields : formXNN (fieldOp w) (fieldX w) (fieldNN w) = w := by
  unfold formXNN fieldOp fieldX fieldNN
  rw [BitVec.extractLsb'_append_extractLsb'_eq_extractLsb' (by decide),
    BitVec.extractLsb'_append_extractLsb'_eq_extractLsb' (by decide)]
  exact BitVec.extractLsb'_eq_self

theorem formXYN_fields : formXYN (fieldOp w) (fieldX w) (fieldY w) (fieldN w) = w := by
  unfold formXYN fieldOp fieldX fieldY fieldN
  rw [BitVec.extractLsb'_append_extractLsb'_eq_extractLsb' (by decide),
    BitVec.extractLsb'_append_extractLsb'_eq_extractLsb' (by decide),
    BitVec.extractLsb'_append_extractLsb'_eq_extractLsb' (by decide)]
  exact BitVec.extractLsb'_eq_self

/-- A word is cut into bytes and put together again (spec/20_memory.md R44). -/
theorem wordOfBytes_bytesOfWord : wordOfBytes (w.extractLsb' 8 8) (w.extractLsb' 0 8) = w := by
  unfold wordOfBytes
  rw [BitVec.extractLsb'_append_extractLsb'_eq_extractLsb' (by decide)]
  exact BitVec.extractLsb'_eq_self

/-! ### The masks of the opcode map -/

theorem and_ones_append {v w : Nat} (a : BitVec v) (b m : BitVec w) :
    (a ++ b) &&& (BitVec.allOnes v ++ m) = a ++ (b &&& m) := by
  rw [BitVec.and_append, BitVec.and_allOnes]

theorem and_zero_append {v w : Nat} (a : BitVec v) (b m : BitVec w) : (a ++ b) &&& (0#v ++ m) = 0#v ++ (b &&& m) := by
  rw [BitVec.and_append, BitVec.and_zero]

theorem accepts_NNN (m : String) : OpcodeRow.accepts ⟨m, 0xF000, formNNN op 0⟩ (formNNN op nnn) = true := by
  refine beq_iff_eq.mpr ((and_ones_append op nnn 0#12).trans ?_)
  rw [BitVec.and_zero]
  rfl

theorem accepts_XNN (m : String) : OpcodeRow.accepts ⟨m, 0xF000, formNNN op 0⟩ (formXNN op x nn) = true :=
  accepts_NNN op (x ++ nn) m

theorem accepts_XYN (m : String) : OpcodeRow.accepts ⟨m, 0xF000, formNNN op 0⟩ (formXYN op x y n) = true :=
  accepts_NNN op (x ++ (y ++ n)) m

theorem accepts_XY (m : String) : OpcodeRow.accepts ⟨m, 0xF00F, formXYN op 0 0 n⟩ (formXYN op x y n) = true := by
  refine beq_iff_eq.mpr ((and_ones_append op (x ++ (y ++ n)) (0#4 ++ (0#4 ++ 15#4))).trans ?_)
  rw [and_zero_append, and_zero_append]
  exact congrArg (fun k => op ++ (0#4 ++ (0#4 ++ k))) BitVec.and_allOnes

theorem accepts_X (m : String) : OpcodeRow.accepts ⟨m, 0xF0FF, formXNN op 0 nn⟩ (formXNN op x nn) = true := by
  refine beq_iff_eq.mpr ((and_ones_append op (x ++ nn) (0#4 ++ 255#8)).trans ?_)
  rw [and_zero_append]
  exact congrArg (fun k => op ++ (0#4 ++ k)) BitVec.and_allOnes

end Sys2Proof
end

