-- ==== Sys2Proof/Laws/Memory.lean ====
section
/-! SUPPORT. Laws of memory: what a read gives after a write, that every operation keeps the canonical form, and that
canonical memories with the same bytes are equal. -/

namespace Sys2Proof.Machine

/-! ### Read after write -/

theorem Memory.wfFrom_mono {m : Memory} {lo lo' : Nat} (h : m.wfFrom lo = true) (hle : lo' ≤ lo) :
    m.wfFrom lo' = true := by
  cases m with
  | nil => rfl
  | cons c m =>
    simp only [Memory.wfFrom, Bool.and_eq_true, decide_eq_true_eq] at h ⊢
    exact ⟨⟨by omega, h.1.2⟩, h.2⟩

/-- Below its first possible address a canonical memory lists nothing. -/
theorem Memory.read_of_lt {m : Memory} {lo a : Nat} (h : m.wfFrom lo = true) (ha : a < lo) :
    m.read a = Memory.unlisted a := by
  induction m generalizing lo with
  | nil => rfl
  | cons c m ih =>
    obtain ⟨b, v⟩ := c
    simp only [Memory.wfFrom, Bool.and_eq_true, decide_eq_true_eq] at h
    rw [Memory.read, if_neg (by omega)]
    exact ih h.2 (by omega)

theorem Memory.read_insert (m : Memory) (a b : Nat) (v : Byte) :
    (Memory.insert a v m).read b = if b = a then v else m.read b := by
  induction m with
  | nil => rfl
  | cons c m ih =>
    obtain ⟨d, w⟩ := c
    simp only [Memory.insert]
    split
    · simp only [Memory.read]
    · split
      · next h => subst h; simp only [Memory.read]; split <;> rfl
      · simp only [Memory.read, ih]
        split
        · next h1 h2 h3 => rw [if_neg (by omega)]
        · rfl

theorem Memory.read_erase (m : Memory) (a b : Nat) :
    (Memory.erase a m).read b = if b = a then Memory.unlisted a else m.read b := by
  induction m with
  | nil => simp only [Memory.erase, Memory.read]; split <;> simp_all
  | cons c m ih =>
    obtain ⟨d, w⟩ := c
    simp only [Memory.erase]
    split
    · next e =>
      subst e
      rw [ih, Memory.read]
      split <;> rfl
    · next e =>
      rw [Memory.read, ih, Memory.read]
      split
      · next e' => subst e'; rw [if_neg (Ne.symm e)]
      · rfl

/-- A read after a write: the written byte at its address, what stood there before everywhere else. -/
theorem Memory.read_write (m : Memory) (a b : Nat) (v : Byte) : (m.write a v).read b = if b = a then v else m.read b := by
  rw [Memory.write]
  split
  · next e => rw [Memory.read_erase, e]
  · exact Memory.read_insert m a b v

theorem Memory.read_write_of_ne (m : Memory) {a b : Nat} (h : b ≠ a) (v : Byte) : (m.write a v).read b = m.read b := by
  rw [Memory.read_write, if_neg h]

/-! ### The canonical form is kept -/

theorem Memory.wfFrom_insert {m : Memory} {lo a : Nat} {v : Byte} (h : m.wfFrom lo = true) (hlo : lo ≤ a)
    (ha : a ≤ 0xFFF) (hv : v ≠ Memory.unlisted a) : (Memory.insert a v m).wfFrom lo = true := by
  induction m generalizing lo with
  | nil => simp [Memory.insert, Memory.wfFrom, hlo, ha, hv]
  | cons c m ih =>
    obtain ⟨d, w⟩ := c
    simp only [Memory.wfFrom, Bool.and_eq_true, decide_eq_true_eq] at h
    simp only [Memory.insert]
    split
    · next hlt =>
      simp only [Memory.wfFrom, Bool.and_eq_true, decide_eq_true_eq]
      exact ⟨⟨hlo, ha, hv⟩, ⟨by omega, h.1.2⟩, h.2⟩
    · split
      · next e =>
        subst e
        simp only [Memory.wfFrom, Bool.and_eq_true, decide_eq_true_eq]
        exact ⟨⟨hlo, ha, hv⟩, h.2⟩
      · simp only [Memory.wfFrom, Bool.and_eq_true, decide_eq_true_eq]
        exact ⟨h.1, ih h.2 (by omega)⟩

theorem Memory.wfFrom_erase {m : Memory} {lo : Nat} (h : m.wfFrom lo = true) (a : Nat) :
    (Memory.erase a m).wfFrom lo = true := by
  induction m generalizing lo with
  | nil => rfl
  | cons c m ih =>
    obtain ⟨d, w⟩ := c
    simp only [Memory.wfFrom, Bool.and_eq_true, decide_eq_true_eq] at h
    simp only [Memory.erase]
    split
    · exact Memory.wfFrom_mono (ih h.2) (by omega)
    · simp only [Memory.wfFrom, Bool.and_eq_true, decide_eq_true_eq]
      exact ⟨h.1, ih h.2⟩

/-- A write to an address that exists keeps the canonical form. -/
theorem Memory.wf_write {m : Memory} (h : m.wf = true) {a : Nat} (ha : a ≤ 0xFFF) (v : Byte) :
    (m.write a v).wf = true := by
  rw [Memory.write]
  split
  · exact Memory.wfFrom_erase h a
  · next hv => exact Memory.wfFrom_insert h (Nat.zero_le a) ha hv

theorem Memory.wf_writeList {m : Memory} (h : m.wf = true) (bs : List Byte) {a : Nat} (ha : a + bs.length ≤ 0x1000) :
    (m.writeList a bs).wf = true := by
  induction bs generalizing m a with
  | nil => exact h
  | cons b bs ih =>
    simp only [List.length_cons] at ha
    exact ih (Memory.wf_write h (by omega) b) (by omega)

/-- Outside the written block a block write changes nothing. -/
theorem Memory.read_writeList_of_not_mem (m : Memory) (bs : List Byte) {a b : Nat} (h : b < a ∨ a + bs.length ≤ b) :
    (m.writeList a bs).read b = m.read b := by
  induction bs generalizing m a with
  | nil => rfl
  | cons c bs ih =>
    simp only [List.length_cons] at h
    rw [Memory.writeList, ih _ (by omega), Memory.read_write_of_ne _ (by omega)]

/-- Inside the written block each address reads as its byte. -/
theorem Memory.read_writeList (m : Memory) (bs : List Byte) (a : Nat) {k : Nat} (hk : k < bs.length) :
    (m.writeList a bs).read (a + k) = bs[k] := by
  induction bs generalizing m a k with
  | nil => simp at hk
  | cons c bs ih =>
    simp only [List.length_cons] at hk
    rw [Memory.writeList]
    cases k with
    | zero =>
      rw [Memory.read_writeList_of_not_mem _ _ (by omega), Nat.add_zero, Memory.read_write, if_pos rfl]
      rfl
    | succ k =>
      rw [show a + (k + 1) = a + 1 + k by omega, ih _ _ (by omega)]
      rfl

/-! ### Equal bytes, equal memories -/

theorem Memory.ext_from {m m' : Memory} {lo : Nat} (h : m.wfFrom lo = true) (h' : m'.wfFrom lo = true)
    (e : ∀ a, m.read a = m'.read a) : m = m' := by
  induction m generalizing m' lo with
  | nil =>
    cases m' with
    | nil => rfl
    | cons c m' =>
      obtain ⟨a, v⟩ := c
      simp only [Memory.wfFrom, Bool.and_eq_true, decide_eq_true_eq] at h'
      have := e a
      simp only [Memory.read, if_true] at this
      exact absurd this.symm h'.1.2.2
  | cons c m ih =>
    obtain ⟨a, v⟩ := c
    simp only [Memory.wfFrom, Bool.and_eq_true, decide_eq_true_eq] at h
    cases m' with
    | nil =>
      have := e a
      simp only [Memory.read, if_true] at this
      exact absurd this h.1.2.2
    | cons c' m' =>
      obtain ⟨b, w⟩ := c'
      simp only [Memory.wfFrom, Bool.and_eq_true, decide_eq_true_eq] at h'
      have ea := e a
      have eb := e b
      have hm : ∀ c, c < a + 1 → Memory.read m c = Memory.unlisted c := fun _ hc => Memory.read_of_lt h.2 hc
      have hm' : ∀ c, c < b + 1 → Memory.read m' c = Memory.unlisted c := fun _ hc => Memory.read_of_lt h'.2 hc
      rcases Nat.lt_trichotomy a b with hab | hab | hab
      · rw [Memory.read, if_pos rfl, Memory.read, if_neg (by omega), hm' _ (by omega)] at ea
        exact absurd ea h.1.2.2
      · subst hab
        rw [Memory.read, if_pos rfl, Memory.read, if_pos rfl] at ea
        subst ea
        refine congrArg _ (ih h.2 h'.2 fun c => ?_)
        by_cases hc : c = a
        · subst hc; rw [hm _ (by omega), hm' _ (by omega)]
        · have := e c
          rwa [Memory.read, if_neg hc, Memory.read, if_neg hc] at this
      · rw [Memory.read, if_neg (by omega), Memory.read, if_pos rfl, hm _ (by omega)] at eb
        exact absurd eb.symm h'.1.2.2

/-- Two canonical memories that read the same at every address are equal data. -/
theorem Memory.ext {m m' : Memory} (h : m.wf = true) (h' : m'.wf = true) (e : ∀ a, m.read a = m'.read a) : m = m' :=
  Memory.ext_from h h' e

/-- The memory after reset lists nothing and is canonical. -/
theorem State.reset_memory_wf : State.reset.memory.wf = true := rfl

/-- Laying in the default FONTSET lists nothing: it is the reset content. -/
theorem Memory.writeList_fontset : Memory.writeList [] 0x050 fontset.toList = [] := by decide +kernel

theorem State.resetWith_memory_wf (font : Vector Byte 80) (s : State) : (s.resetWith font).memory.wf = true :=
  Memory.wf_writeList (m := []) rfl font.toList (by simp)

theorem State.load_memory_wf {s : State} (h : s.memory.wf = true) (program : List Byte) :
    (s.load program).memory.wf = true :=
  Memory.wf_writeList h _ (by simp [programMax]; omega)

theorem State.placeWord_memory_wf {s : State} (h : s.memory.wf = true) (w : Word) : (s.placeWord w).memory.wf = true := by
  unfold State.placeWord
  split
  · next hf =>
    simp only [State.fetchable, decide_eq_true_eq] at hf
    exact Memory.wf_writeList h _ (by simp [bytesOfWord]; omega)
  · exact h

end Sys2Proof.Machine
end

