-- ==== Sys2Proof/Laws/State.lean ====
section
/-! SUPPORT. One lemma per field per update of the state, so that no proof unfolds a record update. -/

namespace Sys2Proof.Machine

variable (s : State)

/-! ### setReg -/

@[simp] theorem State.setReg_V (x : RegIdx) (v : Byte) : (s.setReg x v).V = s.V.set x.toNat v x.isLt := rfl
@[simp] theorem State.setReg_I (x : RegIdx) (v : Byte) : (s.setReg x v).I = s.I := rfl
@[simp] theorem State.setReg_pc (x : RegIdx) (v : Byte) : (s.setReg x v).pc = s.pc := rfl
@[simp] theorem State.setReg_sp (x : RegIdx) (v : Byte) : (s.setReg x v).sp = s.sp := rfl
@[simp] theorem State.setReg_stack (x : RegIdx) (v : Byte) : (s.setReg x v).stack = s.stack := rfl
@[simp] theorem State.setReg_delayTimer (x : RegIdx) (v : Byte) : (s.setReg x v).delayTimer = s.delayTimer := rfl
@[simp] theorem State.setReg_soundTimer (x : RegIdx) (v : Byte) : (s.setReg x v).soundTimer = s.soundTimer := rfl
@[simp] theorem State.setReg_halted (x : RegIdx) (v : Byte) : (s.setReg x v).halted = s.halted := rfl
@[simp] theorem State.setReg_keyTarget (x : RegIdx) (v : Byte) : (s.setReg x v).keyTarget = s.keyTarget := rfl
@[simp] theorem State.setReg_memory (x : RegIdx) (v : Byte) : (s.setReg x v).memory = s.memory := rfl
@[simp] theorem State.setReg_fb (x : RegIdx) (v : Byte) : (s.setReg x v).fb = s.fb := rfl
@[simp] theorem State.setReg_dirty (x : RegIdx) (v : Byte) : (s.setReg x v).dirty = s.dirty := rfl
@[simp] theorem State.setReg_faulted (x : RegIdx) (v : Byte) : (s.setReg x v).faulted = s.faulted := rfl
@[simp] theorem State.setReg_faultCause (x : RegIdx) (v : Byte) : (s.setReg x v).faultCause = s.faultCause := rfl
@[simp] theorem State.setReg_faultPc (x : RegIdx) (v : Byte) : (s.setReg x v).faultPc = s.faultPc := rfl
@[simp] theorem State.setReg_faultOpcode (x : RegIdx) (v : Byte) : (s.setReg x v).faultOpcode = s.faultOpcode := rfl
@[simp] theorem State.setReg_keyEdge (x : RegIdx) (v : Byte) : (s.setReg x v).keyEdge = s.keyEdge := rfl
@[simp] theorem State.setReg_keys (x : RegIdx) (v : Byte) : (s.setReg x v).keys = s.keys := rfl
@[simp] theorem State.setReg_runningIn (x : RegIdx) (v : Byte) : (s.setReg x v).runningIn = s.runningIn := rfl
@[simp] theorem State.setReg_result (x : RegIdx) (v : Byte) : (s.setReg x v).result = s.result := rfl
@[simp] theorem State.setReg_draws (x : RegIdx) (v : Byte) : (s.setReg x v).draws = s.draws := rfl

/-! ### setFlag -/

@[simp] theorem State.setFlag_V (v : Byte) : (s.setFlag v).V = s.V.set 15 v := rfl
@[simp] theorem State.setFlag_I (v : Byte) : (s.setFlag v).I = s.I := rfl
@[simp] theorem State.setFlag_pc (v : Byte) : (s.setFlag v).pc = s.pc := rfl
@[simp] theorem State.setFlag_sp (v : Byte) : (s.setFlag v).sp = s.sp := rfl
@[simp] theorem State.setFlag_stack (v : Byte) : (s.setFlag v).stack = s.stack := rfl
@[simp] theorem State.setFlag_delayTimer (v : Byte) : (s.setFlag v).delayTimer = s.delayTimer := rfl
@[simp] theorem State.setFlag_soundTimer (v : Byte) : (s.setFlag v).soundTimer = s.soundTimer := rfl
@[simp] theorem State.setFlag_halted (v : Byte) : (s.setFlag v).halted = s.halted := rfl
@[simp] theorem State.setFlag_keyTarget (v : Byte) : (s.setFlag v).keyTarget = s.keyTarget := rfl
@[simp] theorem State.setFlag_memory (v : Byte) : (s.setFlag v).memory = s.memory := rfl
@[simp] theorem State.setFlag_fb (v : Byte) : (s.setFlag v).fb = s.fb := rfl
@[simp] theorem State.setFlag_dirty (v : Byte) : (s.setFlag v).dirty = s.dirty := rfl
@[simp] theorem State.setFlag_faulted (v : Byte) : (s.setFlag v).faulted = s.faulted := rfl
@[simp] theorem State.setFlag_faultCause (v : Byte) : (s.setFlag v).faultCause = s.faultCause := rfl
@[simp] theorem State.setFlag_faultPc (v : Byte) : (s.setFlag v).faultPc = s.faultPc := rfl
@[simp] theorem State.setFlag_faultOpcode (v : Byte) : (s.setFlag v).faultOpcode = s.faultOpcode := rfl
@[simp] theorem State.setFlag_keyEdge (v : Byte) : (s.setFlag v).keyEdge = s.keyEdge := rfl
@[simp] theorem State.setFlag_keys (v : Byte) : (s.setFlag v).keys = s.keys := rfl
@[simp] theorem State.setFlag_runningIn (v : Byte) : (s.setFlag v).runningIn = s.runningIn := rfl
@[simp] theorem State.setFlag_result (v : Byte) : (s.setFlag v).result = s.result := rfl
@[simp] theorem State.setFlag_draws (v : Byte) : (s.setFlag v).draws = s.draws := rfl

/-! ### setRegs -/

@[simp] theorem State.setRegs_V (bs : List Byte) : (s.setRegs bs).V = Vector.ofFn fun k : Fin 16 => bs[k.val]?.getD s.V[k.val] := rfl
@[simp] theorem State.setRegs_I (bs : List Byte) : (s.setRegs bs).I = s.I := rfl
@[simp] theorem State.setRegs_pc (bs : List Byte) : (s.setRegs bs).pc = s.pc := rfl
@[simp] theorem State.setRegs_sp (bs : List Byte) : (s.setRegs bs).sp = s.sp := rfl
@[simp] theorem State.setRegs_stack (bs : List Byte) : (s.setRegs bs).stack = s.stack := rfl
@[simp] theorem State.setRegs_delayTimer (bs : List Byte) : (s.setRegs bs).delayTimer = s.delayTimer := rfl
@[simp] theorem State.setRegs_soundTimer (bs : List Byte) : (s.setRegs bs).soundTimer = s.soundTimer := rfl
@[simp] theorem State.setRegs_halted (bs : List Byte) : (s.setRegs bs).halted = s.halted := rfl
@[simp] theorem State.setRegs_keyTarget (bs : List Byte) : (s.setRegs bs).keyTarget = s.keyTarget := rfl
@[simp] theorem State.setRegs_memory (bs : List Byte) : (s.setRegs bs).memory = s.memory := rfl
@[simp] theorem State.setRegs_fb (bs : List Byte) : (s.setRegs bs).fb = s.fb := rfl
@[simp] theorem State.setRegs_dirty (bs : List Byte) : (s.setRegs bs).dirty = s.dirty := rfl
@[simp] theorem State.setRegs_faulted (bs : List Byte) : (s.setRegs bs).faulted = s.faulted := rfl
@[simp] theorem State.setRegs_faultCause (bs : List Byte) : (s.setRegs bs).faultCause = s.faultCause := rfl
@[simp] theorem State.setRegs_faultPc (bs : List Byte) : (s.setRegs bs).faultPc = s.faultPc := rfl
@[simp] theorem State.setRegs_faultOpcode (bs : List Byte) : (s.setRegs bs).faultOpcode = s.faultOpcode := rfl
@[simp] theorem State.setRegs_keyEdge (bs : List Byte) : (s.setRegs bs).keyEdge = s.keyEdge := rfl
@[simp] theorem State.setRegs_keys (bs : List Byte) : (s.setRegs bs).keys = s.keys := rfl
@[simp] theorem State.setRegs_runningIn (bs : List Byte) : (s.setRegs bs).runningIn = s.runningIn := rfl
@[simp] theorem State.setRegs_result (bs : List Byte) : (s.setRegs bs).result = s.result := rfl
@[simp] theorem State.setRegs_draws (bs : List Byte) : (s.setRegs bs).draws = s.draws := rfl

/-! ### setI -/

@[simp] theorem State.setI_V (a : Word) : (s.setI a).V = s.V := rfl
@[simp] theorem State.setI_I (a : Word) : (s.setI a).I = a := rfl
@[simp] theorem State.setI_pc (a : Word) : (s.setI a).pc = s.pc := rfl
@[simp] theorem State.setI_sp (a : Word) : (s.setI a).sp = s.sp := rfl
@[simp] theorem State.setI_stack (a : Word) : (s.setI a).stack = s.stack := rfl
@[simp] theorem State.setI_delayTimer (a : Word) : (s.setI a).delayTimer = s.delayTimer := rfl
@[simp] theorem State.setI_soundTimer (a : Word) : (s.setI a).soundTimer = s.soundTimer := rfl
@[simp] theorem State.setI_halted (a : Word) : (s.setI a).halted = s.halted := rfl
@[simp] theorem State.setI_keyTarget (a : Word) : (s.setI a).keyTarget = s.keyTarget := rfl
@[simp] theorem State.setI_memory (a : Word) : (s.setI a).memory = s.memory := rfl
@[simp] theorem State.setI_fb (a : Word) : (s.setI a).fb = s.fb := rfl
@[simp] theorem State.setI_dirty (a : Word) : (s.setI a).dirty = s.dirty := rfl
@[simp] theorem State.setI_faulted (a : Word) : (s.setI a).faulted = s.faulted := rfl
@[simp] theorem State.setI_faultCause (a : Word) : (s.setI a).faultCause = s.faultCause := rfl
@[simp] theorem State.setI_faultPc (a : Word) : (s.setI a).faultPc = s.faultPc := rfl
@[simp] theorem State.setI_faultOpcode (a : Word) : (s.setI a).faultOpcode = s.faultOpcode := rfl
@[simp] theorem State.setI_keyEdge (a : Word) : (s.setI a).keyEdge = s.keyEdge := rfl
@[simp] theorem State.setI_keys (a : Word) : (s.setI a).keys = s.keys := rfl
@[simp] theorem State.setI_runningIn (a : Word) : (s.setI a).runningIn = s.runningIn := rfl
@[simp] theorem State.setI_result (a : Word) : (s.setI a).result = s.result := rfl
@[simp] theorem State.setI_draws (a : Word) : (s.setI a).draws = s.draws := rfl

/-! ### advanceI -/

@[simp] theorem State.advanceI_V (x : RegIdx) : (s.advanceI x).V = s.V := rfl
@[simp] theorem State.advanceI_I (x : RegIdx) : (s.advanceI x).I = s.I + BitVec.ofNat 16 (rangeCount x) := rfl
@[simp] theorem State.advanceI_pc (x : RegIdx) : (s.advanceI x).pc = s.pc := rfl
@[simp] theorem State.advanceI_sp (x : RegIdx) : (s.advanceI x).sp = s.sp := rfl
@[simp] theorem State.advanceI_stack (x : RegIdx) : (s.advanceI x).stack = s.stack := rfl
@[simp] theorem State.advanceI_delayTimer (x : RegIdx) : (s.advanceI x).delayTimer = s.delayTimer := rfl
@[simp] theorem State.advanceI_soundTimer (x : RegIdx) : (s.advanceI x).soundTimer = s.soundTimer := rfl
@[simp] theorem State.advanceI_halted (x : RegIdx) : (s.advanceI x).halted = s.halted := rfl
@[simp] theorem State.advanceI_keyTarget (x : RegIdx) : (s.advanceI x).keyTarget = s.keyTarget := rfl
@[simp] theorem State.advanceI_memory (x : RegIdx) : (s.advanceI x).memory = s.memory := rfl
@[simp] theorem State.advanceI_fb (x : RegIdx) : (s.advanceI x).fb = s.fb := rfl
@[simp] theorem State.advanceI_dirty (x : RegIdx) : (s.advanceI x).dirty = s.dirty := rfl
@[simp] theorem State.advanceI_faulted (x : RegIdx) : (s.advanceI x).faulted = s.faulted := rfl
@[simp] theorem State.advanceI_faultCause (x : RegIdx) : (s.advanceI x).faultCause = s.faultCause := rfl
@[simp] theorem State.advanceI_faultPc (x : RegIdx) : (s.advanceI x).faultPc = s.faultPc := rfl
@[simp] theorem State.advanceI_faultOpcode (x : RegIdx) : (s.advanceI x).faultOpcode = s.faultOpcode := rfl
@[simp] theorem State.advanceI_keyEdge (x : RegIdx) : (s.advanceI x).keyEdge = s.keyEdge := rfl
@[simp] theorem State.advanceI_keys (x : RegIdx) : (s.advanceI x).keys = s.keys := rfl
@[simp] theorem State.advanceI_runningIn (x : RegIdx) : (s.advanceI x).runningIn = s.runningIn := rfl
@[simp] theorem State.advanceI_result (x : RegIdx) : (s.advanceI x).result = s.result := rfl
@[simp] theorem State.advanceI_draws (x : RegIdx) : (s.advanceI x).draws = s.draws := rfl

/-! ### setPc -/

@[simp] theorem State.setPc_V (a : Word) : (s.setPc a).V = s.V := rfl
@[simp] theorem State.setPc_I (a : Word) : (s.setPc a).I = s.I := rfl
@[simp] theorem State.setPc_pc (a : Word) : (s.setPc a).pc = a := rfl
@[simp] theorem State.setPc_sp (a : Word) : (s.setPc a).sp = s.sp := rfl
@[simp] theorem State.setPc_stack (a : Word) : (s.setPc a).stack = s.stack := rfl
@[simp] theorem State.setPc_delayTimer (a : Word) : (s.setPc a).delayTimer = s.delayTimer := rfl
@[simp] theorem State.setPc_soundTimer (a : Word) : (s.setPc a).soundTimer = s.soundTimer := rfl
@[simp] theorem State.setPc_halted (a : Word) : (s.setPc a).halted = s.halted := rfl
@[simp] theorem State.setPc_keyTarget (a : Word) : (s.setPc a).keyTarget = s.keyTarget := rfl
@[simp] theorem State.setPc_memory (a : Word) : (s.setPc a).memory = s.memory := rfl
@[simp] theorem State.setPc_fb (a : Word) : (s.setPc a).fb = s.fb := rfl
@[simp] theorem State.setPc_dirty (a : Word) : (s.setPc a).dirty = s.dirty := rfl
@[simp] theorem State.setPc_faulted (a : Word) : (s.setPc a).faulted = s.faulted := rfl
@[simp] theorem State.setPc_faultCause (a : Word) : (s.setPc a).faultCause = s.faultCause := rfl
@[simp] theorem State.setPc_faultPc (a : Word) : (s.setPc a).faultPc = s.faultPc := rfl
@[simp] theorem State.setPc_faultOpcode (a : Word) : (s.setPc a).faultOpcode = s.faultOpcode := rfl
@[simp] theorem State.setPc_keyEdge (a : Word) : (s.setPc a).keyEdge = s.keyEdge := rfl
@[simp] theorem State.setPc_keys (a : Word) : (s.setPc a).keys = s.keys := rfl
@[simp] theorem State.setPc_runningIn (a : Word) : (s.setPc a).runningIn = s.runningIn := rfl
@[simp] theorem State.setPc_result (a : Word) : (s.setPc a).result = s.result := rfl
@[simp] theorem State.setPc_draws (a : Word) : (s.setPc a).draws = s.draws := rfl

/-! ### advance -/

@[simp] theorem State.advance_V : (s.advance).V = s.V := rfl
@[simp] theorem State.advance_I : (s.advance).I = s.I := rfl
@[simp] theorem State.advance_pc : (s.advance).pc = s.pc + 2 := rfl
@[simp] theorem State.advance_sp : (s.advance).sp = s.sp := rfl
@[simp] theorem State.advance_stack : (s.advance).stack = s.stack := rfl
@[simp] theorem State.advance_delayTimer : (s.advance).delayTimer = s.delayTimer := rfl
@[simp] theorem State.advance_soundTimer : (s.advance).soundTimer = s.soundTimer := rfl
@[simp] theorem State.advance_halted : (s.advance).halted = s.halted := rfl
@[simp] theorem State.advance_keyTarget : (s.advance).keyTarget = s.keyTarget := rfl
@[simp] theorem State.advance_memory : (s.advance).memory = s.memory := rfl
@[simp] theorem State.advance_fb : (s.advance).fb = s.fb := rfl
@[simp] theorem State.advance_dirty : (s.advance).dirty = s.dirty := rfl
@[simp] theorem State.advance_faulted : (s.advance).faulted = s.faulted := rfl
@[simp] theorem State.advance_faultCause : (s.advance).faultCause = s.faultCause := rfl
@[simp] theorem State.advance_faultPc : (s.advance).faultPc = s.faultPc := rfl
@[simp] theorem State.advance_faultOpcode : (s.advance).faultOpcode = s.faultOpcode := rfl
@[simp] theorem State.advance_keyEdge : (s.advance).keyEdge = s.keyEdge := rfl
@[simp] theorem State.advance_keys : (s.advance).keys = s.keys := rfl
@[simp] theorem State.advance_runningIn : (s.advance).runningIn = s.runningIn := rfl
@[simp] theorem State.advance_result : (s.advance).result = s.result := rfl
@[simp] theorem State.advance_draws : (s.advance).draws = s.draws := rfl

/-! ### skipIf -/

@[simp] theorem State.skipIf_V (c : Bool) : (s.skipIf c).V = s.V := rfl
@[simp] theorem State.skipIf_I (c : Bool) : (s.skipIf c).I = s.I := rfl
@[simp] theorem State.skipIf_pc (c : Bool) : (s.skipIf c).pc = if c then s.pc + 4 else s.pc + 2 := rfl
@[simp] theorem State.skipIf_sp (c : Bool) : (s.skipIf c).sp = s.sp := rfl
@[simp] theorem State.skipIf_stack (c : Bool) : (s.skipIf c).stack = s.stack := rfl
@[simp] theorem State.skipIf_delayTimer (c : Bool) : (s.skipIf c).delayTimer = s.delayTimer := rfl
@[simp] theorem State.skipIf_soundTimer (c : Bool) : (s.skipIf c).soundTimer = s.soundTimer := rfl
@[simp] theorem State.skipIf_halted (c : Bool) : (s.skipIf c).halted = s.halted := rfl
@[simp] theorem State.skipIf_keyTarget (c : Bool) : (s.skipIf c).keyTarget = s.keyTarget := rfl
@[simp] theorem State.skipIf_memory (c : Bool) : (s.skipIf c).memory = s.memory := rfl
@[simp] theorem State.skipIf_fb (c : Bool) : (s.skipIf c).fb = s.fb := rfl
@[simp] theorem State.skipIf_dirty (c : Bool) : (s.skipIf c).dirty = s.dirty := rfl
@[simp] theorem State.skipIf_faulted (c : Bool) : (s.skipIf c).faulted = s.faulted := rfl
@[simp] theorem State.skipIf_faultCause (c : Bool) : (s.skipIf c).faultCause = s.faultCause := rfl
@[simp] theorem State.skipIf_faultPc (c : Bool) : (s.skipIf c).faultPc = s.faultPc := rfl
@[simp] theorem State.skipIf_faultOpcode (c : Bool) : (s.skipIf c).faultOpcode = s.faultOpcode := rfl
@[simp] theorem State.skipIf_keyEdge (c : Bool) : (s.skipIf c).keyEdge = s.keyEdge := rfl
@[simp] theorem State.skipIf_keys (c : Bool) : (s.skipIf c).keys = s.keys := rfl
@[simp] theorem State.skipIf_runningIn (c : Bool) : (s.skipIf c).runningIn = s.runningIn := rfl
@[simp] theorem State.skipIf_result (c : Bool) : (s.skipIf c).result = s.result := rfl
@[simp] theorem State.skipIf_draws (c : Bool) : (s.skipIf c).draws = s.draws := rfl

/-! ### tick -/

@[simp] theorem State.tick_V : (s.tick).V = s.V := rfl
@[simp] theorem State.tick_I : (s.tick).I = s.I := rfl
@[simp] theorem State.tick_pc : (s.tick).pc = s.pc := rfl
@[simp] theorem State.tick_sp : (s.tick).sp = s.sp := rfl
@[simp] theorem State.tick_stack : (s.tick).stack = s.stack := rfl
@[simp] theorem State.tick_delayTimer : (s.tick).delayTimer = tickTimer s.delayTimer := rfl
@[simp] theorem State.tick_soundTimer : (s.tick).soundTimer = tickTimer s.soundTimer := rfl
@[simp] theorem State.tick_halted : (s.tick).halted = s.halted := rfl
@[simp] theorem State.tick_keyTarget : (s.tick).keyTarget = s.keyTarget := rfl
@[simp] theorem State.tick_memory : (s.tick).memory = s.memory := rfl
@[simp] theorem State.tick_fb : (s.tick).fb = s.fb := rfl
@[simp] theorem State.tick_dirty : (s.tick).dirty = s.dirty := rfl
@[simp] theorem State.tick_faulted : (s.tick).faulted = s.faulted := rfl
@[simp] theorem State.tick_faultCause : (s.tick).faultCause = s.faultCause := rfl
@[simp] theorem State.tick_faultPc : (s.tick).faultPc = s.faultPc := rfl
@[simp] theorem State.tick_faultOpcode : (s.tick).faultOpcode = s.faultOpcode := rfl
@[simp] theorem State.tick_keyEdge : (s.tick).keyEdge = s.keyEdge := rfl
@[simp] theorem State.tick_keys : (s.tick).keys = s.keys := rfl
@[simp] theorem State.tick_runningIn : (s.tick).runningIn = s.runningIn := rfl
@[simp] theorem State.tick_result : (s.tick).result = s.result := rfl
@[simp] theorem State.tick_draws : (s.tick).draws = s.draws := rfl

/-! ### finish -/

@[simp] theorem State.finish_V : (s.finish).V = s.V := rfl
@[simp] theorem State.finish_I : (s.finish).I = s.I := rfl
@[simp] theorem State.finish_pc : (s.finish).pc = s.pc := rfl
@[simp] theorem State.finish_sp : (s.finish).sp = s.sp := rfl
@[simp] theorem State.finish_stack : (s.finish).stack = s.stack := rfl
@[simp] theorem State.finish_delayTimer : (s.finish).delayTimer = tickTimer s.delayTimer := rfl
@[simp] theorem State.finish_soundTimer : (s.finish).soundTimer = tickTimer s.soundTimer := rfl
@[simp] theorem State.finish_halted : (s.finish).halted = s.halted := rfl
@[simp] theorem State.finish_keyTarget : (s.finish).keyTarget = s.keyTarget := rfl
@[simp] theorem State.finish_memory : (s.finish).memory = s.memory := rfl
@[simp] theorem State.finish_fb : (s.finish).fb = s.fb := rfl
@[simp] theorem State.finish_dirty : (s.finish).dirty = s.dirty := rfl
@[simp] theorem State.finish_faulted : (s.finish).faulted = s.faulted := rfl
@[simp] theorem State.finish_faultCause : (s.finish).faultCause = s.faultCause := rfl
@[simp] theorem State.finish_faultPc : (s.finish).faultPc = s.faultPc := rfl
@[simp] theorem State.finish_faultOpcode : (s.finish).faultOpcode = s.faultOpcode := rfl
@[simp] theorem State.finish_keyEdge : (s.finish).keyEdge = s.keyEdge := rfl
@[simp] theorem State.finish_keys : (s.finish).keys = s.keys := rfl
@[simp] theorem State.finish_runningIn : (s.finish).runningIn = s.runningIn := rfl
@[simp] theorem State.finish_result : (s.finish).result = .ok s.runningIn := rfl
@[simp] theorem State.finish_draws : (s.finish).draws = s.draws := rfl

/-! ### setCanvas -/

@[simp] theorem State.setCanvas_V (c : Canvas) : (s.setCanvas c).V = s.V.set 15 (if c.collision then 1 else 0) := rfl
@[simp] theorem State.setCanvas_I (c : Canvas) : (s.setCanvas c).I = s.I := rfl
@[simp] theorem State.setCanvas_pc (c : Canvas) : (s.setCanvas c).pc = s.pc := rfl
@[simp] theorem State.setCanvas_sp (c : Canvas) : (s.setCanvas c).sp = s.sp := rfl
@[simp] theorem State.setCanvas_stack (c : Canvas) : (s.setCanvas c).stack = s.stack := rfl
@[simp] theorem State.setCanvas_delayTimer (c : Canvas) : (s.setCanvas c).delayTimer = s.delayTimer := rfl
@[simp] theorem State.setCanvas_soundTimer (c : Canvas) : (s.setCanvas c).soundTimer = s.soundTimer := rfl
@[simp] theorem State.setCanvas_halted (c : Canvas) : (s.setCanvas c).halted = s.halted := rfl
@[simp] theorem State.setCanvas_keyTarget (c : Canvas) : (s.setCanvas c).keyTarget = s.keyTarget := rfl
@[simp] theorem State.setCanvas_memory (c : Canvas) : (s.setCanvas c).memory = s.memory := rfl
@[simp] theorem State.setCanvas_fb (c : Canvas) : (s.setCanvas c).fb = c.fb := rfl
@[simp] theorem State.setCanvas_dirty (c : Canvas) : (s.setCanvas c).dirty = true := rfl
@[simp] theorem State.setCanvas_faulted (c : Canvas) : (s.setCanvas c).faulted = s.faulted := rfl
@[simp] theorem State.setCanvas_faultCause (c : Canvas) : (s.setCanvas c).faultCause = s.faultCause := rfl
@[simp] theorem State.setCanvas_faultPc (c : Canvas) : (s.setCanvas c).faultPc = s.faultPc := rfl
@[simp] theorem State.setCanvas_faultOpcode (c : Canvas) : (s.setCanvas c).faultOpcode = s.faultOpcode := rfl
@[simp] theorem State.setCanvas_keyEdge (c : Canvas) : (s.setCanvas c).keyEdge = s.keyEdge := rfl
@[simp] theorem State.setCanvas_keys (c : Canvas) : (s.setCanvas c).keys = s.keys := rfl
@[simp] theorem State.setCanvas_runningIn (c : Canvas) : (s.setCanvas c).runningIn = s.runningIn := rfl
@[simp] theorem State.setCanvas_result (c : Canvas) : (s.setCanvas c).result = s.result := rfl
@[simp] theorem State.setCanvas_draws (c : Canvas) : (s.setCanvas c).draws = s.draws := rfl

/-! ### drawRandom -/

@[simp] theorem State.drawRandom_V : (s.drawRandom.2).V = s.V := rfl
@[simp] theorem State.drawRandom_I : (s.drawRandom.2).I = s.I := rfl
@[simp] theorem State.drawRandom_pc : (s.drawRandom.2).pc = s.pc := rfl
@[simp] theorem State.drawRandom_sp : (s.drawRandom.2).sp = s.sp := rfl
@[simp] theorem State.drawRandom_stack : (s.drawRandom.2).stack = s.stack := rfl
@[simp] theorem State.drawRandom_delayTimer : (s.drawRandom.2).delayTimer = s.delayTimer := rfl
@[simp] theorem State.drawRandom_soundTimer : (s.drawRandom.2).soundTimer = s.soundTimer := rfl
@[simp] theorem State.drawRandom_halted : (s.drawRandom.2).halted = s.halted := rfl
@[simp] theorem State.drawRandom_keyTarget : (s.drawRandom.2).keyTarget = s.keyTarget := rfl
@[simp] theorem State.drawRandom_memory : (s.drawRandom.2).memory = s.memory := rfl
@[simp] theorem State.drawRandom_fb : (s.drawRandom.2).fb = s.fb := rfl
@[simp] theorem State.drawRandom_dirty : (s.drawRandom.2).dirty = s.dirty := rfl
@[simp] theorem State.drawRandom_faulted : (s.drawRandom.2).faulted = s.faulted := rfl
@[simp] theorem State.drawRandom_faultCause : (s.drawRandom.2).faultCause = s.faultCause := rfl
@[simp] theorem State.drawRandom_faultPc : (s.drawRandom.2).faultPc = s.faultPc := rfl
@[simp] theorem State.drawRandom_faultOpcode : (s.drawRandom.2).faultOpcode = s.faultOpcode := rfl
@[simp] theorem State.drawRandom_keyEdge : (s.drawRandom.2).keyEdge = s.keyEdge := rfl
@[simp] theorem State.drawRandom_keys : (s.drawRandom.2).keys = s.keys := rfl
@[simp] theorem State.drawRandom_runningIn : (s.drawRandom.2).runningIn = s.runningIn := rfl
@[simp] theorem State.drawRandom_result : (s.drawRandom.2).result = s.result := rfl
@[simp] theorem State.drawRandom_draws : (s.drawRandom.2).draws = s.draws + 1 := rfl

/-! ### takeFault -/

@[simp] theorem takeFault_V (c : FaultCause) (w : Word) : (takeFault c w s).V = s.V := rfl
@[simp] theorem takeFault_I (c : FaultCause) (w : Word) : (takeFault c w s).I = s.I := rfl
@[simp] theorem takeFault_pc (c : FaultCause) (w : Word) : (takeFault c w s).pc = s.pc := rfl
@[simp] theorem takeFault_sp (c : FaultCause) (w : Word) : (takeFault c w s).sp = s.sp := rfl
@[simp] theorem takeFault_stack (c : FaultCause) (w : Word) : (takeFault c w s).stack = s.stack := rfl
@[simp] theorem takeFault_delayTimer (c : FaultCause) (w : Word) : (takeFault c w s).delayTimer = s.delayTimer := rfl
@[simp] theorem takeFault_soundTimer (c : FaultCause) (w : Word) : (takeFault c w s).soundTimer = s.soundTimer := rfl
@[simp] theorem takeFault_halted (c : FaultCause) (w : Word) : (takeFault c w s).halted = s.halted := rfl
@[simp] theorem takeFault_keyTarget (c : FaultCause) (w : Word) : (takeFault c w s).keyTarget = s.keyTarget := rfl
@[simp] theorem takeFault_memory (c : FaultCause) (w : Word) : (takeFault c w s).memory = s.memory := rfl
@[simp] theorem takeFault_fb (c : FaultCause) (w : Word) : (takeFault c w s).fb = s.fb := rfl
@[simp] theorem takeFault_dirty (c : FaultCause) (w : Word) : (takeFault c w s).dirty = s.dirty := rfl
@[simp] theorem takeFault_faulted (c : FaultCause) (w : Word) : (takeFault c w s).faulted = true := rfl
@[simp] theorem takeFault_faultCause (c : FaultCause) (w : Word) : (takeFault c w s).faultCause = c := rfl
@[simp] theorem takeFault_faultPc (c : FaultCause) (w : Word) : (takeFault c w s).faultPc = s.pc := rfl
@[simp] theorem takeFault_faultOpcode (c : FaultCause) (w : Word) : (takeFault c w s).faultOpcode = w := rfl
@[simp] theorem takeFault_keyEdge (c : FaultCause) (w : Word) : (takeFault c w s).keyEdge = s.keyEdge := rfl
@[simp] theorem takeFault_keys (c : FaultCause) (w : Word) : (takeFault c w s).keys = s.keys := rfl
@[simp] theorem takeFault_runningIn (c : FaultCause) (w : Word) : (takeFault c w s).runningIn = s.runningIn := rfl
@[simp] theorem takeFault_result (c : FaultCause) (w : Word) : (takeFault c w s).result = .fault c := rfl
@[simp] theorem takeFault_draws (c : FaultCause) (w : Word) : (takeFault c w s).draws = s.draws := rfl

/-! ### Reading a register after an update -/

@[simp] theorem State.reg_setReg_self (x : RegIdx) (v : Byte) : (s.setReg x v).reg x = v := by
  simp [State.reg, State.setReg]

theorem State.reg_setReg_of_ne {x z : RegIdx} (h : z ≠ x) (v : Byte) : (s.setReg x v).reg z = s.reg z := by
  have hne : x.toNat ≠ z.toNat := fun e => h (BitVec.eq_of_toNat_eq e.symm)
  simp [State.reg, State.setReg, hne]

/-- A register write is seen by that register and by no other. -/
theorem State.reg_setReg (x z : RegIdx) (v : Byte) : (s.setReg x v).reg z = if z = x then v else s.reg z := by
  split
  · next h => subst h; simp
  · next h => exact s.reg_setReg_of_ne h v

theorem State.reg_setFlag (z : RegIdx) (v : Byte) : (s.setFlag v).reg z = if z = 0xF then v else s.reg z :=
  s.reg_setReg 0xF z v

theorem State.reg_setRegs (bs : List Byte) (z : RegIdx) : (s.setRegs bs).reg z = bs[z.toNat]?.getD (s.reg z) := by
  simp [State.reg, State.setRegs]

/-- A register is read from the register file alone. -/
theorem State.reg_congr {s t : State} (h : t.V = s.V) (z : RegIdx) : t.reg z = s.reg z := by
  simp [State.reg, h]

@[simp] theorem State.reg_setI (a : Word) (z : RegIdx) : (s.setI a).reg z = s.reg z := rfl
@[simp] theorem State.reg_advanceI (x : RegIdx) (z : RegIdx) : (s.advanceI x).reg z = s.reg z := rfl
@[simp] theorem State.reg_setPc (a : Word) (z : RegIdx) : (s.setPc a).reg z = s.reg z := rfl
@[simp] theorem State.reg_advance (z : RegIdx) : (s.advance).reg z = s.reg z := rfl
@[simp] theorem State.reg_skipIf (c : Bool) (z : RegIdx) : (s.skipIf c).reg z = s.reg z := rfl
@[simp] theorem State.reg_tick (z : RegIdx) : (s.tick).reg z = s.reg z := rfl
@[simp] theorem State.reg_finish (z : RegIdx) : (s.finish).reg z = s.reg z := rfl
@[simp] theorem State.reg_drawRandom (z : RegIdx) : (s.drawRandom.2).reg z = s.reg z := rfl
@[simp] theorem State.reg_takeFault (c : FaultCause) (w : Word) (z : RegIdx) : (takeFault c w s).reg z = s.reg z := rfl

@[simp] theorem State.reg_setCanvas (c : Canvas) (z : RegIdx) :
    (s.setCanvas c).reg z = if z = 0xF then (if c.collision then 1 else 0) else s.reg z :=
  State.reg_setFlag { s with fb := c.fb, dirty := true } z _

end Sys2Proof.Machine
end

