-- ==== Sys2Proof/Laws/Ops.lean ====
section
/-! SUPPORT. One lemma per shared operation: everything it can answer. -/

namespace Sys2Proof.Machine

/-! ### Memory primitives -/

theorem memRead_eq {a : Nat} (h : a ≤ 0xFFF) (s : State) : memRead a s = .ok (s.memory.read a) := if_pos h

theorem memWrite_eq {a : Nat} (h : a ≤ 0xFFF) (v : Byte) (s : State) :
    memWrite a v s = .ok { s with memory := s.memory.write a v } := if_pos h

/-- A block read inside memory answers the bytes in order. -/
theorem memReads_eq (s : State) {a k : Nat} (h : a + k ≤ 0x1000) :
    memReads s a k = .ok ((List.range k).map fun j => s.memory.read (a + j)) := by
  induction k generalizing a with
  | zero => rfl
  | succ k ih =>
    rw [memReads, memRead_eq (by omega), ih (by omega), List.range_succ_eq_map]
    simp [Function.comp_def, Nat.add_assoc, Nat.add_comm 1]

/-- A block write inside memory answers the state with the bytes laid in. -/
theorem memWrites_eq (s : State) (bs : List Byte) {a : Nat} (h : a + bs.length ≤ 0x1000) :
    memWrites a bs s = .ok { s with memory := s.memory.writeList a bs } := by
  induction bs generalizing a s with
  | nil => rfl
  | cons b bs ih =>
    simp only [List.length_cons] at h
    rw [memWrites, memWrite_eq (by omega)]
    exact ih _ (by omega)

/-- The range check passed: the whole block lies in memory. -/
theorem outOfRange_eq_false {s : State} {count : Nat} (h : outOfRange s count = false) (hc : 0 < count) :
    s.I.toNat + count ≤ 0x1000 := by
  have h := of_decide_eq_false h
  simp only [dataBase] at h
  omega

@[simp] theorem decimalDigits_length (a : Byte) : (decimalDigits a).length = 3 := rfl

@[simp] theorem regRange_length (s : State) (x : RegIdx) : (regRange s x).length = x.toNat + 1 := by
  have := x.isLt
  simp [regRange, rangeCount]
  omega

theorem regRange_getElem (s : State) (x z : RegIdx) (h : z.toNat ≤ x.toNat) :
    (regRange s x)[z.toNat]'(by simp; omega) = s.reg z := by
  simp [regRange, State.reg]

/-! ### Stack -/

/-- A push answers exactly when an entry is free. -/
theorem State.push_eq_some {s t : State} {a : Word} (h : s.push a = some t) :
    ∃ hs : s.sp.val < 16, t = { s with stack := s.stack.set s.sp.val a hs, sp := ⟨s.sp.val + 1, by omega⟩ } := by
  unfold State.push at h
  split at h
  · next hs => exact ⟨hs, (Option.some.inj h).symm⟩
  · cases h

theorem State.push_eq_none {s : State} {a : Word} : s.push a = none ↔ s.sp.val = 16 := by
  have := s.sp.isLt
  unfold State.push
  split <;> simp <;> omega

/-- A pop answers exactly when an entry is in use. -/
theorem State.pop_eq_some {s t : State} {a : Word} (h : s.pop = some (a, t)) :
    ∃ hs : 0 < s.sp.val,
      a = s.stack[s.sp.val - 1]'(by omega) ∧ t = { s with sp := ⟨s.sp.val - 1, by omega⟩ } := by
  unfold State.pop at h
  split at h
  · next hs =>
    have := Option.some.inj h
    exact ⟨hs, (congrArg Prod.fst this).symm, (congrArg Prod.snd this).symm⟩
  · cases h

theorem State.pop_eq_none {s : State} : s.pop = none ↔ s.sp.val = 0 := by
  unfold State.pop
  split <;> simp <;> omega

/-! ### Keys -/

theorem keyOperand_eq_none {s : State} {x : RegIdx} : keyOperand s x = none ↔ (s.reg x).toNat > 0x0F := by
  unfold keyOperand
  split <;> simp_all

theorem keyOperand_eq_some {s : State} {x : RegIdx} {b : Bool} (h : keyOperand s x = some b) :
    (s.reg x).toNat ≤ 0x0F ∧ b = s.keys.getLsbD (s.reg x).toNat := by
  unfold keyOperand at h
  split at h
  · cases h
  · exact ⟨by omega, (Option.some.inj h).symm⟩

/-- The lowest key answers a key that is down and below which none is. -/
theorem lowestKey_eq_some {keys : BitVec 16} {k : Nat} (h : lowestKey keys = some k) :
    k < 16 ∧ keys.getLsbD k = true ∧ ∀ j < k, keys.getLsbD j = false := by
  unfold lowestKey at h
  rw [List.find?_range_eq_some] at h
  simp only [List.mem_range, Bool.not_eq_true'] at h
  exact ⟨h.2.1, h.1, h.2.2⟩

theorem lowestKey_eq_none {keys : BitVec 16} : lowestKey keys = none ↔ keys = 0 := by
  unfold lowestKey
  rw [List.find?_eq_none]
  constructor
  · intro h
    refine BitVec.eq_of_getLsbD_eq fun k hk => ?_
    simpa using h k (List.mem_range.mpr hk)
  · rintro rfl
    simp

/-! ### Timers -/

theorem tickTimer_toNat (t : Byte) : (tickTimer t).toNat = t.toNat - 1 := by
  unfold tickTimer
  split
  · next h => bv_omega
  · next h => bv_omega

/-! ### Fetch, decode, the end of a step -/

theorem fetchWord_eq {s : State} (h : s.fetchable = true) :
    fetchWord s = .ok (wordOfBytes (s.memory.read s.pc.toNat) (s.memory.read (s.pc.toNat + 1))) := by
  simp only [State.fetchable, decide_eq_true_eq] at h
  rw [fetchWord, memRead_eq (by omega), memRead_eq (by omega)]

/-- What the end of a running step makes of the execute phase's answer. -/
theorem retire_eq_next {o : Result} {t : State} (h : retire o = .next t) :
    ∃ u, o = .next u ∧ t = if u.faulted then u else u.finish := by
  cases o with
  | next u => exact ⟨u, rfl, (Host.Outcome.next.inj h).symm⟩
  | fault f => cases h
  | refused r => cases h

/-! ### The frame buffer -/

theorem Canvas.toggle_fb (c : Canvas) (k j : Nat) (h : k < 2048) :
    (c.toggle k).fb.getLsbD j = if j = k then !c.fb.getLsbD j else c.fb.getLsbD j := by
  simp only [Canvas.toggle, BitVec.getLsbD_xor, BitVec.getLsbD_twoPow]
  by_cases e : j = k
  · subst e; simp [h]
  · have : ¬ k = j := fun e' => e e'.symm
    simp [e, this]

/-- Different columns or rows inside the frame are different cells. -/
theorem cellIndex_inj {cx cy dx dy : Nat} (hc : cx < 64) (hd : dx < 64) :
    cellIndex cx cy = cellIndex dx dy ↔ cx = dx ∧ cy = dy := by
  unfold cellIndex
  omega

end Sys2Proof.Machine
end

