-- ==== Sys2Proof/Laws/Exec.lean ====
section
/-! SUPPORT. What `exec` answers for the instructions that check before they act, once for each side of the check; the mode
and the fetched instruction in terms of the fields; what a taken fault reports. -/

namespace Sys2Proof.Machine

/-! ### Mode and fetch -/

theorem State.mode_eq_faulted {s : State} : s.mode = .faulted ↔ s.faulted = true := by
  unfold State.mode
  cases s.faulted <;> cases s.halted <;> simp

theorem State.mode_eq_waiting {s : State} : s.mode = .waitingForKey ↔ s.faulted = false ∧ s.halted = true := by
  unfold State.mode
  cases s.faulted <;> cases s.halted <;> simp

theorem State.mode_eq_running {s : State} : s.mode = .running ↔ s.faulted = false ∧ s.halted = false := by
  unfold State.mode
  cases s.faulted <;> cases s.halted <;> simp

/-- An instruction is fetched exactly from two existing bytes whose word decodes to it. -/
theorem State.instrAt_eq_some {s : State} {i : Instr} :
    s.instrAt = some i ↔ s.pc.toNat ≤ 0xFFE ∧ decodeWord (s.wordAt s.pc.toNat) = some i := by
  unfold State.instrAt State.fetchable
  split <;> simp_all

/-- Fetch and decode answers the instruction at `pc`. -/
theorem fetchDecode_of_instrAt {s : State} {i : Instr} (h : s.instrAt = some i) : fetchDecode s = .ok i := by
  obtain ⟨h1, h2⟩ := State.instrAt_eq_some.mp h
  have hf : s.fetchable = true := decide_eq_true h1
  simp only [State.wordAt] at h2
  simp only [fetchDecode, hf, if_true, fetchWord_eq hf, h2]

/-! ### Faults -/

/-- Every part but the report and the result survives a fault. -/
theorem takeFault_kept (c : FaultCause) (w : Word) (s : State) {p : Part} (h : p ≠ .faultReport) (h' : p ≠ .result) :
    Kept p s (takeFault c w s) := by
  cases p <;> simp_all [Kept]

/-! ### The range check -/

theorem outOfRange_eq_true_iff {s : State} {k : Nat} : outOfRange s (k + 1) = true ↔ s.I.toNat + k > 0xFFF := by
  rw [outOfRange, decide_eq_true_iff, dataBase]
  omega

theorem outOfRange_succ_eq_false_iff {s : State} {k : Nat} : outOfRange s (k + 1) = false ↔ s.I.toNat + k ≤ 0xFFF := by
  rw [← Bool.not_eq_true, outOfRange_eq_true_iff]
  omega

theorem outOfRange_of_no_rows {s : State} {n : Nat} (h : n > 0 → s.I.toNat + n - 1 ≤ 0xFFF) : outOfRange s n = false := by
  rw [outOfRange, decide_eq_false_iff_not, dataBase]
  omega

/-! ### Stack -/

theorem exec_ret_of_empty {s : State} (h : s.sp.val = 0) : exec .ret s = raiseFault .stackUnderflow .ret s := by
  simp [exec, execRet, State.pop_eq_none.mpr h]

theorem exec_ret_of_used {s : State} (h : s.sp.val ≠ 0) :
    exec .ret s =
      .next { s with sp := ⟨s.sp.val - 1, by omega⟩, pc := s.stack[s.sp.val - 1]'(by omega) + 2 } := by
  simp only [exec, execRet]
  cases e : s.pop with
  | none => exact absurd (State.pop_eq_none.mp e) h
  | some p =>
    obtain ⟨a, t⟩ := p
    obtain ⟨_, rfl, rfl⟩ := State.pop_eq_some e
    rfl

theorem exec_call_of_full {s : State} {nnn : BitVec 12} (h : s.sp.val = 16) :
    exec (.call nnn) s = raiseFault .stackOverflow (.call nnn) s := by
  simp [exec, execCall, State.push_eq_none.mpr h]

theorem exec_call_of_free {s : State} {nnn : BitVec 12} (h : s.sp.val < 16) :
    exec (.call nnn) s =
      .next { s with sp := ⟨s.sp.val + 1, by omega⟩, pc := addrOperand nnn, stack := s.stack.set s.sp.val s.pc h } := by
  simp only [exec, execCall]
  cases e : s.push s.pc with
  | none =>
    have := State.push_eq_none.mp e
    omega
  | some t =>
    obtain ⟨_, rfl⟩ := State.push_eq_some e
    rfl

/-! ### Data memory -/

theorem exec_ldB_in_range {s : State} {x : RegIdx} (h : s.I.toNat + 2 ≤ 0xFFF) :
    exec (.ldB x) s =
      .next ({ s with memory := s.memory.writeList s.I.toNat (decimalDigits (s.reg x)) } : State).advance := by
  simp only [exec, execLdB, outOfRange_succ_eq_false_iff.mpr h, Bool.false_eq_true, if_false, withMem, dataBase,
    memWrites_eq s (decimalDigits (s.reg x)) (a := s.I.toNat) (by simp; omega)]

theorem exec_ldB_out_of_range {s : State} {x : RegIdx} (h : s.I.toNat + 2 > 0xFFF) :
    exec (.ldB x) s = raiseFault .memRange (.ldB x) s := by
  simp [exec, execLdB, outOfRange_eq_true_iff.mpr h]

theorem exec_storeRegs_in_range {s : State} {x : RegIdx} (h : s.I.toNat + x.toNat ≤ 0xFFF) :
    exec (.storeRegs x) s =
      .next (({ s with memory := s.memory.writeList s.I.toNat (regRange s x) } : State).advanceI x).advance := by
  simp only [exec, execStoreRegs, rangeCount, outOfRange_succ_eq_false_iff.mpr h, Bool.false_eq_true, if_false, withMem,
    dataBase, memWrites_eq s (regRange s x) (a := s.I.toNat) (by simp; omega)]

theorem exec_storeRegs_out_of_range {s : State} {x : RegIdx} (h : s.I.toNat + x.toNat > 0xFFF) :
    exec (.storeRegs x) s = raiseFault .memRange (.storeRegs x) s := by
  simp [exec, execStoreRegs, rangeCount, outOfRange_eq_true_iff.mpr h]

theorem exec_loadRegs_in_range {s : State} {x : RegIdx} (h : s.I.toNat + x.toNat ≤ 0xFFF) :
    exec (.loadRegs x) s =
      .next ((s.setRegs ((List.range (x.toNat + 1)).map fun j => s.memory.read (s.I.toNat + j))).advanceI x).advance := by
  simp only [exec, execLoadRegs, rangeCount, outOfRange_succ_eq_false_iff.mpr h, Bool.false_eq_true, if_false, withMem,
    dataBase, memReads_eq s (a := s.I.toNat) (k := x.toNat + 1) (by omega)]

theorem exec_loadRegs_out_of_range {s : State} {x : RegIdx} (h : s.I.toNat + x.toNat > 0xFFF) :
    exec (.loadRegs x) s = raiseFault .memRange (.loadRegs x) s := by
  simp [exec, execLoadRegs, rangeCount, outOfRange_eq_true_iff.mpr h]

/-! ### Graphics -/

theorem exec_drw_in_range {s : State} {x y : RegIdx} {n : BitVec 4} (h : n.toNat > 0 → s.I.toNat + n.toNat - 1 ≤ 0xFFF) :
    exec (.drw x y n) s =
      .next (s.setCanvas (drawSprite s.fb (s.reg x).toNat (s.reg y).toNat
        ((List.range n.toNat).map fun j => s.memory.read (s.I.toNat + j)))).advance := by
  have ho := outOfRange_of_no_rows h
  by_cases h0 : n.toNat = 0
  · simp [exec, execDrw, h0, memReads, withMem, outOfRange]
  · simp only [exec, execDrw, ho, Bool.false_eq_true, if_false, withMem, dataBase,
      memReads_eq s (a := s.I.toNat) (k := n.toNat) (by omega)]

theorem exec_drw_out_of_range {s : State} {x y : RegIdx} {n : BitVec 4} (h : n.toNat > 0)
    (h' : s.I.toNat + n.toNat - 1 > 0xFFF) : exec (.drw x y n) s = raiseFault .memRange (.drw x y n) s := by
  have ho : outOfRange s n.toNat = true := by
    rw [outOfRange, decide_eq_true_iff, dataBase]
    omega
  simp [exec, execDrw, ho]

/-! ### Keypad -/

theorem exec_skp_of_key {s : State} {x : RegIdx} (h : (s.reg x).toNat ≤ 0x0F) :
    exec (.skp x) s = .next (s.skipIf (s.keys.getLsbD (s.reg x).toNat)) := by
  simp only [exec, execSkp]
  cases e : keyOperand s x with
  | none =>
    have := keyOperand_eq_none.mp e
    omega
  | some _ => rw [(keyOperand_eq_some e).2]

theorem exec_skp_of_no_key {s : State} {x : RegIdx} (h : (s.reg x).toNat > 0x0F) :
    exec (.skp x) s = raiseFault .keyIndex (.skp x) s := by
  simp [exec, execSkp, keyOperand_eq_none.mpr h]

theorem exec_sknp_of_key {s : State} {x : RegIdx} (h : (s.reg x).toNat ≤ 0x0F) :
    exec (.sknp x) s = .next (s.skipIf (!s.keys.getLsbD (s.reg x).toNat)) := by
  simp only [exec, execSknp]
  cases e : keyOperand s x with
  | none =>
    have := keyOperand_eq_none.mp e
    omega
  | some _ => rw [(keyOperand_eq_some e).2]

theorem exec_sknp_of_no_key {s : State} {x : RegIdx} (h : (s.reg x).toNat > 0x0F) :
    exec (.sknp x) s = raiseFault .keyIndex (.sknp x) s := by
  simp [exec, execSknp, keyOperand_eq_none.mpr h]

end Sys2Proof.Machine
end

