-- ==== Sys2Proof/Laws/PerInstr.lean ====
section
/-! SUPPORT. What is proved for each instruction: its word is accepted by the row of the opcode map that has its mnemonic. -/

namespace Sys2Proof.Laws

/-- The row of the opcode map with the instruction's own mnemonic accepts the instruction's word (spec/30_encoding.md R65). -/
def OwnRowAccepts.Statement (i : Instr) : Prop :=
  ∃ r ∈ opcodeMap, r.mnemonic = i.mnemonic ∧ r.accepts (encode i) = true

theorem OwnRowAccepts.cls : OwnRowAccepts.Statement (.cls) :=
  ⟨⟨"CLS", 0xFFFF, 0x00E0⟩, by decide, rfl, by decide⟩

theorem OwnRowAccepts.ret : OwnRowAccepts.Statement (.ret) :=
  ⟨⟨"RET", 0xFFFF, 0x00EE⟩, by decide, rfl, by decide⟩

theorem OwnRowAccepts.jp (nnn : BitVec 12) : OwnRowAccepts.Statement (.jp nnn) :=
  ⟨⟨"JP_nnn", 0xF000, 0x1000⟩, by decide, rfl, accepts_NNN _ _ _⟩

theorem OwnRowAccepts.call (nnn : BitVec 12) : OwnRowAccepts.Statement (.call nnn) :=
  ⟨⟨"CALL_nnn", 0xF000, 0x2000⟩, by decide, rfl, accepts_NNN _ _ _⟩

theorem OwnRowAccepts.seImm (x : RegIdx) (nn : Byte) : OwnRowAccepts.Statement (.seImm x nn) :=
  ⟨⟨"SE_Vx__nn", 0xF000, 0x3000⟩, by decide, rfl, accepts_XNN _ _ _ _⟩

theorem OwnRowAccepts.sneImm (x : RegIdx) (nn : Byte) : OwnRowAccepts.Statement (.sneImm x nn) :=
  ⟨⟨"SNE_Vx__nn", 0xF000, 0x4000⟩, by decide, rfl, accepts_XNN _ _ _ _⟩

theorem OwnRowAccepts.seReg (x y : RegIdx) : OwnRowAccepts.Statement (.seReg x y) :=
  ⟨⟨"SE_Vx__Vy", 0xF00F, 0x5000⟩, by decide, rfl, accepts_XY _ _ _ _ _⟩

theorem OwnRowAccepts.ldImm (x : RegIdx) (nn : Byte) : OwnRowAccepts.Statement (.ldImm x nn) :=
  ⟨⟨"LD_Vx__nn", 0xF000, 0x6000⟩, by decide, rfl, accepts_XNN _ _ _ _⟩

theorem OwnRowAccepts.addImm (x : RegIdx) (nn : Byte) : OwnRowAccepts.Statement (.addImm x nn) :=
  ⟨⟨"ADD_Vx__nn", 0xF000, 0x7000⟩, by decide, rfl, accepts_XNN _ _ _ _⟩

theorem OwnRowAccepts.ldReg (x y : RegIdx) : OwnRowAccepts.Statement (.ldReg x y) :=
  ⟨⟨"LD_Vx__Vy", 0xF00F, 0x8000⟩, by decide, rfl, accepts_XY _ _ _ _ _⟩

theorem OwnRowAccepts.orReg (x y : RegIdx) : OwnRowAccepts.Statement (.orReg x y) :=
  ⟨⟨"OR_Vx__Vy", 0xF00F, 0x8001⟩, by decide, rfl, accepts_XY _ _ _ _ _⟩

theorem OwnRowAccepts.andReg (x y : RegIdx) : OwnRowAccepts.Statement (.andReg x y) :=
  ⟨⟨"AND_Vx__Vy", 0xF00F, 0x8002⟩, by decide, rfl, accepts_XY _ _ _ _ _⟩

theorem OwnRowAccepts.xorReg (x y : RegIdx) : OwnRowAccepts.Statement (.xorReg x y) :=
  ⟨⟨"XOR_Vx__Vy", 0xF00F, 0x8003⟩, by decide, rfl, accepts_XY _ _ _ _ _⟩

theorem OwnRowAccepts.addReg (x y : RegIdx) : OwnRowAccepts.Statement (.addReg x y) :=
  ⟨⟨"ADD_Vx__Vy", 0xF00F, 0x8004⟩, by decide, rfl, accepts_XY _ _ _ _ _⟩

theorem OwnRowAccepts.sub (x y : RegIdx) : OwnRowAccepts.Statement (.sub x y) :=
  ⟨⟨"SUB_Vx__Vy", 0xF00F, 0x8005⟩, by decide, rfl, accepts_XY _ _ _ _ _⟩

theorem OwnRowAccepts.shr (x y : RegIdx) : OwnRowAccepts.Statement (.shr x y) :=
  ⟨⟨"SHR_Vx", 0xF00F, 0x8006⟩, by decide, rfl, accepts_XY _ _ _ _ _⟩

theorem OwnRowAccepts.subn (x y : RegIdx) : OwnRowAccepts.Statement (.subn x y) :=
  ⟨⟨"SUBN_Vx__Vy", 0xF00F, 0x8007⟩, by decide, rfl, accepts_XY _ _ _ _ _⟩

theorem OwnRowAccepts.shl (x y : RegIdx) : OwnRowAccepts.Statement (.shl x y) :=
  ⟨⟨"SHL_Vx", 0xF00F, 0x800E⟩, by decide, rfl, accepts_XY _ _ _ _ _⟩

theorem OwnRowAccepts.sneReg (x y : RegIdx) : OwnRowAccepts.Statement (.sneReg x y) :=
  ⟨⟨"SNE_Vx__Vy", 0xF00F, 0x9000⟩, by decide, rfl, accepts_XY _ _ _ _ _⟩

theorem OwnRowAccepts.ldI (nnn : BitVec 12) : OwnRowAccepts.Statement (.ldI nnn) :=
  ⟨⟨"LD_I__nnn", 0xF000, 0xA000⟩, by decide, rfl, accepts_NNN _ _ _⟩

theorem OwnRowAccepts.rnd (x : RegIdx) (nn : Byte) : OwnRowAccepts.Statement (.rnd x nn) :=
  ⟨⟨"RND_Vx__nn", 0xF000, 0xC000⟩, by decide, rfl, accepts_XNN _ _ _ _⟩

theorem OwnRowAccepts.drw (x y : RegIdx) (n : BitVec 4) : OwnRowAccepts.Statement (.drw x y n) :=
  ⟨⟨"DRW_Vx__Vy__n", 0xF000, 0xD000⟩, by decide, rfl, accepts_XYN _ _ _ _ _⟩

theorem OwnRowAccepts.skp (x : RegIdx) : OwnRowAccepts.Statement (.skp x) :=
  ⟨⟨"SKP_Vx", 0xF0FF, 0xE09E⟩, by decide, rfl, accepts_X _ _ _ _⟩

theorem OwnRowAccepts.sknp (x : RegIdx) : OwnRowAccepts.Statement (.sknp x) :=
  ⟨⟨"SKNP_Vx", 0xF0FF, 0xE0A1⟩, by decide, rfl, accepts_X _ _ _ _⟩

theorem OwnRowAccepts.ldVxDt (x : RegIdx) : OwnRowAccepts.Statement (.ldVxDt x) :=
  ⟨⟨"LD_Vx__DT", 0xF0FF, 0xF007⟩, by decide, rfl, accepts_X _ _ _ _⟩

theorem OwnRowAccepts.ldVxK (x : RegIdx) : OwnRowAccepts.Statement (.ldVxK x) :=
  ⟨⟨"LD_Vx__K", 0xF0FF, 0xF00A⟩, by decide, rfl, accepts_X _ _ _ _⟩

theorem OwnRowAccepts.ldDtVx (x : RegIdx) : OwnRowAccepts.Statement (.ldDtVx x) :=
  ⟨⟨"LD_DT__Vx", 0xF0FF, 0xF015⟩, by decide, rfl, accepts_X _ _ _ _⟩

theorem OwnRowAccepts.ldStVx (x : RegIdx) : OwnRowAccepts.Statement (.ldStVx x) :=
  ⟨⟨"LD_ST__Vx", 0xF0FF, 0xF018⟩, by decide, rfl, accepts_X _ _ _ _⟩

theorem OwnRowAccepts.addI (x : RegIdx) : OwnRowAccepts.Statement (.addI x) :=
  ⟨⟨"ADD_I__Vx", 0xF0FF, 0xF01E⟩, by decide, rfl, accepts_X _ _ _ _⟩

theorem OwnRowAccepts.ldF (x : RegIdx) : OwnRowAccepts.Statement (.ldF x) :=
  ⟨⟨"LD_F__Vx", 0xF0FF, 0xF029⟩, by decide, rfl, accepts_X _ _ _ _⟩

theorem OwnRowAccepts.ldB (x : RegIdx) : OwnRowAccepts.Statement (.ldB x) :=
  ⟨⟨"LD_B__Vx", 0xF0FF, 0xF033⟩, by decide, rfl, accepts_X _ _ _ _⟩

theorem OwnRowAccepts.storeRegs (x : RegIdx) : OwnRowAccepts.Statement (.storeRegs x) :=
  ⟨⟨"LD__I___Vx", 0xF0FF, 0xF055⟩, by decide, rfl, accepts_X _ _ _ _⟩

theorem OwnRowAccepts.loadRegs (x : RegIdx) : OwnRowAccepts.Statement (.loadRegs x) :=
  ⟨⟨"LD_Vx___I", 0xF0FF, 0xF065⟩, by decide, rfl, accepts_X _ _ _ _⟩

end Sys2Proof.Laws
end

