-- ==== Sys2Proof/Tests/Slice0.lean ====
section
/-! SUPPORT. Tests: ill-formed operands, words of the encoding, single steps, and for every statement with hypotheses a state
that meets them. The expected results are those of spec/95_test_vectors.md, whose section is named, or of the rule named. -/

open Sys2Proof Sys2Proof.Machine

namespace Tests

-- Each `decide +kernel` waits for the declarations before it; elaborated side by side, a hundred of them hold a thread each.
set_option Elab.async false

/-! ### Helpers -/

/-- The state after one step, where there is one. -/
def after (s : State) : Option State :=
  match step s with
  | .next t => some t
  | .fault _ | .refused _ => none

/-- An outcome is a next state with the given property. -/
def meets (o : Result) (p : State → Bool) : Bool :=
  match o with
  | .next t => p t
  | .fault _ | .refused _ => false

theorem exists_of_meets {o : Result} {p : State → Bool} (h : meets o p = true) : ∃ t, o = .next t ∧ p t = true := by
  cases o with
  | next t => exact ⟨t, rfl, h⟩
  | fault _ => cases h
  | refused _ => cases h

/-- One step on the word `w`, placed at `pc` of `s`. -/
def run (w : Nat) (s : State) : Option State := after (s.withFetchWord 16 w)

/-- Fresh, with `V[1] = a` and `V[2] = b`. -/
def pair (a b : Byte) : State := (State.reset.setReg 1 a).setReg 2 b

/-- Fresh, with one register and `I` set. -/
def indexed (x : RegIdx) (v : Byte) (a : Word) : State := (State.reset.setReg x v).setI a

/-- `V[x]`, `VF` and `pc` of a state. -/
def regs (x : RegIdx) (t : State) : Byte × Byte × Word := (t.reg x, t.reg 0xF, t.pc)

/-- The fault report, `pc` and the result of a state. -/
def report (t : State) : FaultCause × Word × Word × Word × StepResult :=
  (t.faultCause, t.faultPc, t.faultOpcode, t.pc, t.result)

/-- The report of a fault whose cause is `c`, at `a`, of the word `w`. -/
def reports (c : FaultCause) (a w : Word) : Option (FaultCause × Word × Word × Word × StepResult) :=
  some (c, a, w, a, .fault c)

/-- Every two rows of a list are disjoint. -/
def pairwiseDisjoint : List OpcodeRow → Bool
  | [] => true
  | r :: rs => rs.all r.disjoint && pairwiseDisjoint rs

/-! ### Well-formedness -/

/-- A register index above 15 is refused. -/
theorem test_ill_formed_register : WellFormed.isReg 16 = false ∧ WellFormed.isReg 15 = true := by decide

/-- An immediate of more than 8 bits is refused. -/
theorem test_ill_formed_immediate : WellFormed.isImm 256 = false ∧ WellFormed.isImm 255 = true := by decide

/-- An address of more than 12 bits is refused. -/
theorem test_ill_formed_address : WellFormed.isAddr 0x1000 = false ∧ WellFormed.isAddr 0xFFF = true := by decide

/-- A row count above 15 is refused. -/
theorem test_ill_formed_count : WellFormed.isCount 16 = false ∧ WellFormed.isCount 15 = true := by decide

/-- Two rows that share a word are refused. -/
theorem test_overlapping_rows : OpcodeRow.disjoint ⟨"A", 0xF000, 0x5000⟩ ⟨"B", 0xF00F, 0x5000⟩ = false := by decide

/-- No word matches two rows (spec/30_encoding.md R64). -/
theorem test_opcode_map_disjoint : pairwiseDisjoint opcodeMap = true := by decide +kernel

/-! ### Decoding, every constructor by a word written out from spec/30_encoding.md R65 -/

theorem test_decode_control :
    decodeWord 0b0000000011101110 = some .ret ∧
    decodeWord 0b0001001000000100 = some (.jp 0x204) ∧
    decodeWord 0b0010001000001010 = some (.call 0x20A) ∧
    decodeWord 0b0011000101111111 = some (.seImm 1 0x7F) ∧
    decodeWord 0b0100101000000101 = some (.sneImm 10 5) ∧
    decodeWord 0b0101000100100000 = some (.seReg 1 2) ∧
    decodeWord 0b1001000100100000 = some (.sneReg 1 2) := by decide +kernel

theorem test_decode_alu_immediate :
    decodeWord 0b0110101000101011 = some (.ldImm 10 0x2B) ∧
    decodeWord 0b0111000111111111 = some (.addImm 1 0xFF) ∧
    decodeWord 0b1100000100001111 = some (.rnd 1 0x0F) := by decide +kernel

theorem test_decode_alu_register :
    decodeWord 0b1000000100100000 = some (.ldReg 1 2) ∧
    decodeWord 0b1000000100100001 = some (.orReg 1 2) ∧
    decodeWord 0b1000000100100010 = some (.andReg 1 2) ∧
    decodeWord 0b1000000100100011 = some (.xorReg 1 2) ∧
    decodeWord 0b1000000100100100 = some (.addReg 1 2) ∧
    decodeWord 0b1000000100100101 = some (.sub 1 2) ∧
    decodeWord 0b1000000100100110 = some (.shr 1 2) ∧
    decodeWord 0b1000000100100111 = some (.subn 1 2) ∧
    decodeWord 0b1000000100101110 = some (.shl 1 2) := by decide +kernel

theorem test_decode_index_memory :
    decodeWord 0b1010001011110000 = some (.ldI 0x2F0) ∧
    decodeWord 0b1111001100011110 = some (.addI 3) ∧
    decodeWord 0b1111010000101001 = some (.ldF 4) ∧
    decodeWord 0b1111010100110011 = some (.ldB 5) ∧
    decodeWord 0b1111001001010101 = some (.storeRegs 2) ∧
    decodeWord 0b1111011001100101 = some (.loadRegs 6) := by decide +kernel

theorem test_decode_graphics :
    decodeWord 0b0000000011100000 = some .cls ∧
    decodeWord 0b1101001000110101 = some (.drw 2 3 5) := by decide +kernel

theorem test_decode_keypad_timers :
    decodeWord 0b1110001010011110 = some (.skp 2) ∧
    decodeWord 0b1110001010100001 = some (.sknp 2) ∧
    decodeWord 0b1111000100000111 = some (.ldVxDt 1) ∧
    decodeWord 0b1111001000001010 = some (.ldVxK 2) ∧
    decodeWord 0b1111001100010101 = some (.ldDtVx 3) ∧
    decodeWord 0b1111010000011000 = some (.ldStVx 4) := by decide +kernel

/-- The illegal words of section 2.1. -/
theorem test_decode_illegal :
    [0x0000, 0x00E1, 0x00FE, 0x0123, 0xB123, 0x5121, 0x9121, 0x8128, 0x812F, 0xE000, 0xE19F, 0xF000, 0xF130, 0xF1FF].all
      (fun w => decodeWord w == none) = true := by decide +kernel

/-- The byte at the lower address is the high byte (section 2.1). -/
theorem test_byte_order : decodeBytes [0x6A, 0x2B, 0x00] = .ok (.ldImm 10 0x2B, [0x00]) := by decide +kernel

theorem test_byte_stream_too_short : decodeBytes [0x6A] = .error .tooShort := by decide

/-- The host's form of a word, and where it is placed. -/
theorem test_table_word : decodeTableWord 16 0x6A2B = some (.ldImm 10 0x2B) := by decide +kernel

/-! ### Control flow (section 2.2) -/

theorem test_ret :
    (run 0x00EE { State.reset with pc := 0x020C, sp := 1, stack := State.reset.stack.set 0 0x0204 }).map
      (fun t => (t.sp.val, t.stack[0], t.pc)) = some (0, 0x0204, 0x0206) := by decide +kernel

theorem test_ret_underflow :
    (run 0x00EE { State.reset with pc := 0x020C }).map report = reports .stackUnderflow 0x020C 0x00EE := by decide +kernel

theorem test_jp : (run 0x1204 { State.reset with pc := 0x020A }).map (·.pc) = some 0x0204 := by decide +kernel

theorem test_call :
    (run 0x220A { State.reset with pc := 0x0204 }).map (fun t => (t.sp.val, t.stack[0], t.pc)) =
      some (1, 0x0204, 0x020A) := by decide +kernel

theorem test_call_overflow :
    (run 0x2300 { State.reset with pc := 0x0204, sp := 16 }).map report = reports .stackOverflow 0x0204 0x2300 := by
  decide +kernel

theorem test_se_imm : (run 0x3100 State.reset).map (·.pc) = some 0x0204 := by decide +kernel

theorem test_se_imm_not_taken : (run 0x3100 (pair 4 0)).map (·.pc) = some 0x0202 := by decide +kernel

theorem test_sne_imm : (run 0x4A05 (State.reset.setReg 10 6)).map (·.pc) = some 0x0204 := by decide +kernel

theorem test_sne_imm_not_taken : (run 0x4A05 (State.reset.setReg 10 5)).map (·.pc) = some 0x0202 := by decide +kernel

theorem test_se_reg : (run 0x5120 (pair 7 7)).map (·.pc) = some 0x0204 := by decide +kernel

theorem test_se_reg_not_taken : (run 0x5120 (pair 7 8)).map (·.pc) = some 0x0202 := by decide +kernel

theorem test_sne_reg : (run 0x9120 (pair 7 8)).map (·.pc) = some 0x0204 := by decide +kernel

theorem test_sne_reg_same_register : (run 0x9110 (pair 7 8)).map (·.pc) = some 0x0202 := by decide +kernel

/-! ### Arithmetic and logic (section 2.3) -/

theorem test_ld_imm : (run 0x6F07 State.reset).map (regs 0xF) = some (0x07, 0x07, 0x0202) := by decide +kernel

theorem test_add_imm_wraps :
    (run 0x7101 ((pair 0xFF 0).setFlag 0x55)).map (regs 1) = some (0x00, 0x55, 0x0202) := by decide +kernel

theorem test_ld_reg : (run 0x8120 (pair 0 0x33)).map (regs 1) = some (0x33, 0, 0x0202) := by decide +kernel

theorem test_or : (run 0x8121 ((pair 0xF0 0x0F).setFlag 0x55)).map (regs 1) = some (0xFF, 0x55, 0x0202) := by decide +kernel

theorem test_and : (run 0x8122 ((pair 0xF0 0x3C).setFlag 0x55)).map (regs 1) = some (0x30, 0x55, 0x0202) := by decide +kernel

theorem test_xor : (run 0x8123 ((pair 0xF0 0x3C).setFlag 0x55)).map (regs 1) = some (0xCC, 0x55, 0x0202) := by decide +kernel

theorem test_add_carry : (run 0x8124 (pair 0xFF 0x01)).map (regs 1) = some (0x00, 1, 0x0202) := by decide +kernel

/-- `y` is `VF`: the operand is the old `VF`. -/
theorem test_add_flag_operand :
    (run 0x81F4 ((pair 0xFF 0).setFlag 1)).map (regs 1) = some (0x00, 1, 0x0202) := by decide +kernel

/-- Equal operands: the strict comparison gives 0. -/
theorem test_sub_equal : (run 0x8125 (pair 5 5)).map (regs 1) = some (0x00, 0, 0x0202) := by decide +kernel

/-- `x` is `VF`: the difference remains. -/
theorem test_sub_flag_destination :
    (run 0x8F25 ((pair 0 4).setFlag 9)).map (regs 0xF) = some (0x05, 0x05, 0x0202) := by decide +kernel

theorem test_shr : (run 0x8126 (pair 0x05 0xFF)).map (fun t => (regs 1 t, t.reg 2)) = some ((0x02, 1, 0x0202), 0xFF) := by
  decide +kernel

theorem test_shr_flag_destination : (run 0x8F06 (State.reset.setFlag 7)).map (regs 0xF) = some (3, 3, 0x0202) := by
  decide +kernel

theorem test_subn : (run 0x8127 (pair 5 3)).map (regs 1) = some (0xFE, 0, 0x0202) := by decide +kernel

theorem test_subn_no_borrow : (run 0x8127 (pair 3 5)).map (regs 1) = some (0x02, 1, 0x0202) := by decide +kernel

theorem test_shl : (run 0x812E (pair 0x81 0x55)).map (regs 1) = some (0x02, 1, 0x0202) := by decide +kernel

theorem test_shl_flag_destination : (run 0x8FFE (State.reset.setFlag 0xC1)).map (regs 0xF) = some (0x82, 0x82, 0x0202) := by
  decide +kernel

/-- The value is free; the rest of the step is not. -/
theorem test_rnd :
    (run 0xC10F ((pair 9 8).setFlag 7)).map (fun t => (t.reg 2, t.reg 0xF, t.pc, t.result)) =
      some (8, 7, 0x0202, .ok false) := by decide +kernel

/-- A zero mask leaves no bit, whatever byte was drawn. -/
theorem test_rnd_zero_mask : ∃ t, exec (.rnd 1 0x00) (pair 9 0) = .next t ∧ t.reg 1 = 0 := ⟨_, rfl, by simp⟩

/-! ### Index register and memory (section 2.4) -/

theorem test_ld_i : (run 0xA2F0 (State.reset.setI 0xFFFF)).map (fun t => (t.I, t.pc)) = some (0x02F0, 0x0202) := by
  decide +kernel

theorem test_add_i_wraps : (run 0xF31E (indexed 3 1 0xFFFF)).map (·.I) = some 0x0000 := by decide +kernel

theorem test_add_i_past_memory :
    (run 0xF31E ((indexed 3 1 0x0FFF).setFlag 7)).map (fun t => (t.I, t.reg 0xF, t.faulted)) = some (0x1000, 7, false) := by
  decide +kernel

theorem test_ld_f : (run 0xF029 (indexed 0 0x0A 0)).map (·.I) = some 0x0082 := by decide +kernel

theorem test_ld_f_unmasked : (run 0xF029 (indexed 0 0xFF 0)).map (·.I) = some 0x054B := by decide +kernel

theorem test_ld_b :
    (run 0xF033 (indexed 0 0xFF 0x0FFD)).map
      (fun t => (t.memory.read 0xFFD, t.memory.read 0xFFE, t.memory.read 0xFFF, t.I)) = some (2, 5, 5, 0x0FFD) := by
  decide +kernel

theorem test_ld_b_out_of_range :
    (run 0xF033 (indexed 0 0xFF 0x0FFE)).map (fun t => (report t, t.memory.read 0xFFE)) =
      (reports .memRange 0x0200 0xF033).map (fun r => (r, 0)) := by decide +kernel

theorem test_store :
    (run 0xF155 ((pair 0x22 0x33).setI 0x0400)).map
      (fun t => (t.memory.read 0x400, t.memory.read 0x401, t.memory.read 0x402, t.I)) = some (0, 0x22, 0, 0x0402) := by
  decide +kernel

theorem test_store_out_of_range :
    (run 0xFF55 (indexed 0 1 0x0FF1)).map (fun t => (report t, t.I)) =
      (reports .memRange 0x0200 0xFF55).map (fun r => (r, 0x0FF1)) := by decide +kernel

/-- The glyph 0 of the default FONTSET. -/
theorem test_load :
    (run 0xF465 (indexed 5 0x77 0x0050)).map (fun t => ([0, 1, 2, 3, 4, 5].map t.reg, t.I)) =
      some ([0xF0, 0x90, 0x90, 0x90, 0xF0, 0x77], 0x0055) := by decide +kernel

theorem test_load_out_of_range :
    (run 0xF165 (indexed 0 9 0x0FFF)).map (fun t => (report t, t.reg 0)) =
      (reports .memRange 0x0200 0xF165).map (fun r => (r, 9)) := by decide +kernel

/-! ### Graphics (section 2.5) -/

theorem test_cls :
    (run 0x00E0 ({ State.reset with fb := 1 ||| BitVec.twoPow 2048 2047 }.setFlag 3)).map
      (fun t => (t.fb, t.dirty, t.reg 0xF)) = some (0, true, 3) := by decide +kernel

/-- Section S4: 32 cells, wrapped on both axes. -/
theorem test_drw_wraps :
    (run 0xD014 { (pair 30 0).setReg 0 60 with
      I := 0x0300, memory := [(0x300, 0xFF), (0x301, 0xFF), (0x302, 0xFF), (0x303, 0xFF)] }).map
      (fun t => ((List.range 2048).filter fun k => t.fb.getLsbD k, t.reg 0xF)) =
      some ([0, 1, 2, 3] ++ [60, 61, 62, 63] ++ [64, 65, 66, 67] ++ [124, 125, 126, 127] ++ [1920, 1921, 1922, 1923] ++
        [1980, 1981, 1982, 1983] ++ [1984, 1985, 1986, 1987] ++ [2044, 2045, 2046, 2047], 0) := by decide +kernel

/-- A collision at cell 265; cell 276 lies outside the sprite. -/
theorem test_drw_collision :
    (run 0xD231 { (State.reset.setReg 2 8).setReg 3 4 with
      I := 0x0300, memory := [(0x300, 0xF0)], fb := BitVec.twoPow 2048 265 ||| BitVec.twoPow 2048 276 }).map
      (fun t => ((List.range 2048).filter fun k => t.fb.getLsbD k, t.reg 0xF)) = some ([264, 266, 267, 276], 1) := by
  decide +kernel

/-! ### Keypad and timers (section 2.6) -/

theorem test_skp : (run 0xE29E { pair 0 2 with pc := 0x0208, keys := 0x0024 }).map (·.pc) = some 0x020C := by decide +kernel

theorem test_skp_no_key :
    (run 0xE29E { pair 0 0x10 with pc := 0x0208, keys := 0xFFFF }).map report = reports .keyIndex 0x0208 0xE29E := by
  decide +kernel

theorem test_sknp : (run 0xE2A1 { pair 0 3 with keys := 0x0024 }).map (·.pc) = some 0x0204 := by decide +kernel

theorem test_sknp_pressed : (run 0xE2A1 { pair 0 5 with keys := 0x0024 }).map (·.pc) = some 0x0202 := by decide +kernel

theorem test_ld_vx_dt :
    (run 0xF107 { State.reset with delayTimer := 2 }).map (fun t => (t.reg 1, t.delayTimer)) = some (2, 1) := by
  decide +kernel

theorem test_ld_vx_k :
    (run 0xFF0A { State.reset with keyEdge := true, keys := 0x8000 }).map
      (fun t => (t.halted, t.keyTarget, t.keyEdge, t.pc)) = some (true, 15, true, 0x0200) := by decide +kernel

theorem test_ld_dt_vx : (run 0xF015 (State.reset.setReg 0 0xFF)).map (·.delayTimer) = some 0xFE := by decide +kernel

theorem test_ld_dt_vx_zero : (run 0xF015 { State.reset with delayTimer := 9 }).map (·.delayTimer) = some 0 := by
  decide +kernel

theorem test_ld_st_vx : (run 0xF118 (pair 0x10 0)).map (·.soundTimer) = some 0x0F := by decide +kernel

/-! ### The step -/

/-- Section S7: the empty program faults at its first step. -/
theorem test_empty_program : (after State.reset).map report = reports .illegalOpcode 0x0200 0x0000 := by decide +kernel

/-- Section 2.1: a skip at the last word leaves `pc` at 0x1002. -/
theorem test_last_word : (run 0x3000 { State.reset with pc := 0x0FFE }).map (·.pc) = some 0x1002 := by decide +kernel

/-- Section 2.1: the range check comes before the fetch. -/
theorem test_fetch_range :
    (after { State.reset with pc := 0x0FFF, memory := [(0xFFF, 0xB1)] }).map report =
      reports .fetchRange 0x0FFF 0x0000 := by decide +kernel

/-- Section 2.1: an odd `pc` is no fault. -/
theorem test_odd_pc : (run 0x6A2B { State.reset with pc := 0x0201 }).map (regs 10) = some (0x2B, 0, 0x0203) := by
  decide +kernel

/-- Section 2.7: a faulting step does not tick. -/
theorem test_fault_does_not_tick : (after { State.reset with delayTimer := 5 }).map (·.delayTimer) = some 5 := by
  decide +kernel

/-! ### States that meet the hypotheses of the statements -/

/-- Waiting at `F20A` with the keys 2 and 5 down and the edge flag set (section S6, step 4). -/
def waiting : State :=
  { State.reset with
    pc := 0x0206, memory := [(0x206, 0xF2), (0x207, 0x0A)], halted := true, keyTarget := 2, delayTimer := 2, keyEdge := true,
    keys := 0x0024 }

/-- Faulted on the illegal word at 0x200, as section S7 leaves it. -/
def faulted : State := takeFault .illegalOpcode 0x0000 State.reset

/-- Fresh with an instruction at 0x200. -/
def fresh (w : Nat) : State := State.reset.withFetchWord 16 w

theorem witness_DecodeThenEncodeIsIdentity : decodeWord 0x812E = some (.shl 1 2) := by decide +kernel

theorem witness_DecoderFollowsOpcodeMap :
    (⟨"SHL_Vx", 0xF00F, 0x800E⟩ : OpcodeRow) ∈ opcodeMap ∧
    OpcodeRow.accepts ⟨"SHL_Vx", 0xF00F, 0x800E⟩ 0x812E = true ∧
    OpcodeRow.accepts ⟨"SHL_Vx", 0xF00F, 0x800E⟩ 0x812F = false := by decide +kernel

theorem witness_RunningStepExecutesFetchedInstruction :
    (fresh 0x6A2B).mode = .running ∧ (fresh 0x6A2B).instrAt = some (.ldImm 10 0x2B) ∧
    ∃ t, exec (.ldImm 10 0x2B) (fresh 0x6A2B) = .next t ∧ (!t.faulted) = true :=
  ⟨by decide +kernel, by decide +kernel, exists_of_meets (by decide +kernel)⟩

/-- An instruction that faults is executed too. -/
theorem witness_RunningStepExecutesFetchedInstruction_fault :
    (fresh 0x00EE).mode = .running ∧ (fresh 0x00EE).instrAt = some .ret ∧
    ∃ t, exec .ret (fresh 0x00EE) = .next t ∧ t.faulted = true :=
  ⟨by decide +kernel, by decide +kernel, exists_of_meets (by decide +kernel)⟩

theorem witness_FetchOutsideMemoryFaults :
    ({ State.reset with pc := 0x0FFF } : State).mode = .running ∧
    ({ State.reset with pc := 0x0FFF } : State).pc.toNat > 0xFFE := by decide

theorem witness_IllegalWordFaults :
    State.reset.mode = .running ∧ State.reset.pc.toNat ≤ 0xFFE ∧
    decodeWord (State.reset.wordAt State.reset.pc.toNat) = none := by decide +kernel

theorem witness_IllegalWordFaults_last_word :
    ({ State.reset with pc := 0x0FFE } : State).mode = .running ∧
    ({ State.reset with pc := 0x0FFE } : State).pc.toNat ≤ 0xFFE ∧
    decodeWord (({ State.reset with pc := 0x0FFE } : State).wordAt 0xFFE) = none := by decide +kernel

theorem witness_WaitingStepResumesWithLowestKey :
    waiting.mode = .waitingForKey ∧ waiting.keyEdge = true ∧ 2 < 16 ∧ waiting.keys.getLsbD 2 = true ∧
    (∀ j < 2, waiting.keys.getLsbD j = false) := by decide

theorem witness_WaitingStepResumesWithLowestKey_last_key :
    (0x8000 : BitVec 16).getLsbD 15 = true ∧ (∀ j < 15, (0x8000 : BitVec 16).getLsbD j = false) := by decide

theorem witness_WaitingStepWithoutKeyKeepsWaiting_no_edge :
    ({ waiting with keyEdge := false } : State).mode = .waitingForKey ∧
    ({ waiting with keyEdge := false } : State).keyEdge = false := by decide

theorem witness_WaitingStepWithoutKeyKeepsWaiting_no_key :
    ({ waiting with keys := 0 } : State).mode = .waitingForKey ∧ ({ waiting with keys := 0 } : State).keys = 0 ∧
    ({ waiting with keys := 0 } : State).keyEdge = true := by decide

theorem witness_FaultedStepChangesNothing : faulted.mode = .faulted := by decide

theorem witness_TimersTickOncePerUnfaultedStep_faulted :
    ∃ t, step faulted = .next t ∧ (t.result == .fault .illegalOpcode) = true :=
  exists_of_meets (by decide +kernel)

theorem witness_TimersTickOncePerUnfaultedStep_waiting :
    waiting.mode = .waitingForKey ∧ ∃ t, step waiting = .next t ∧ (t.delayTimer == 1) = true :=
  ⟨by decide, exists_of_meets (by decide +kernel)⟩

/-- A running step that completes, and ticks from 1 to 0. -/
theorem witness_TimersTickOncePerUnfaultedStep_running :
    ∃ t, step { fresh 0x6A2B with delayTimer := 1 } = .next t ∧ (!t.faulted && t.delayTimer == 0) = true :=
  exists_of_meets (by decide +kernel)

/-- A running step that faults, and does not tick. -/
theorem witness_TimersTickOncePerUnfaultedStep_fault :
    ∃ t, step { State.reset with delayTimer := 1 } = .next t ∧ (t.faulted && t.delayTimer == 1) = true :=
  exists_of_meets (by decide +kernel)

theorem witness_FaultsArePrecise_fetch :
    ∃ t, step { State.reset with pc := 0x0FFF } = .next t ∧ (t.faulted && t.faultCause == .fetchRange) = true :=
  exists_of_meets (by decide +kernel)

theorem witness_FaultsArePrecise_instruction :
    ∃ t, step (fresh 0x00EE) = .next t ∧ (t.faulted && t.faultCause == .stackUnderflow) = true :=
  exists_of_meets (by decide +kernel)

/-- Every cause of the table of spec/60_exceptions.md R163 is raised by some instruction, at the boundary. -/
theorem witness_InstructionsFaultExactlyByTable :
    ownFault .ret State.reset = some .stackUnderflow ∧
    ownFault (.call 0) { State.reset with sp := 16 } = some .stackOverflow ∧
    ownFault (.drw 0 1 2) (State.reset.setI 0x0FFF) = some .memRange ∧
    ownFault (.ldB 0) (State.reset.setI 0x0FFE) = some .memRange ∧
    ownFault (.storeRegs 1) (State.reset.setI 0x0FFF) = some .memRange ∧
    ownFault (.loadRegs 1) (State.reset.setI 0x0FFF) = some .memRange ∧
    ownFault (.skp 2) (pair 0 0x10) = some .keyIndex ∧
    ownFault (.sknp 2) (pair 0 0x10) = some .keyIndex := by decide +kernel

/-- And by none just inside it. -/
theorem witness_InstructionsFaultExactlyByTable_none :
    ownFault .ret { State.reset with sp := 1 } = none ∧
    ownFault (.call 0) { State.reset with sp := 15 } = none ∧
    ownFault (.drw 0 1 1) (State.reset.setI 0x0FFF) = none ∧
    ownFault (.drw 0 1 0) (State.reset.setI 0xFFFF) = none ∧
    ownFault (.ldB 0) (State.reset.setI 0x0FFD) = none ∧
    ownFault (.storeRegs 0) (State.reset.setI 0x0FFF) = none ∧
    ownFault (.loadRegs 0) (State.reset.setI 0x0FFF) = none ∧
    ownFault (.skp 2) (pair 0 0x0F) = none ∧
    ownFault (.sknp 2) (pair 0 0x0F) = none := by decide +kernel

theorem witness_RunningSignalPassesThrough : ∃ t, step (fresh 0x6A2B) = .next t ∧ (t.result == .ok false) = true :=
  exists_of_meets (by decide +kernel)

theorem witness_CallPushesItsOwnAddress :
    ({ State.reset with sp := 16 } : State).sp.val = 16 ∧ ({ State.reset with sp := 15 } : State).sp.val ≠ 16 := by decide

theorem witness_ReturnPopsAndAddsTwo :
    State.reset.sp.val = 0 ∧ ({ State.reset with sp := 1 } : State).sp.val ≠ 0 := by decide

theorem witness_CallThenReturnResumesAfterCall : ({ State.reset with sp := 15 } : State).sp.val ≠ 16 := by decide

theorem witness_DecimalDigitsAreStored :
    (State.reset.setI 0x0FFE).I.toNat + 2 > 0xFFF ∧ (State.reset.setI 0x0FFD).I.toNat + 2 ≤ 0xFFF := by decide

theorem witness_RegistersAreStored :
    (State.reset.setI 0x0FF1).I.toNat + (15 : RegIdx).toNat > 0xFFF ∧
    (State.reset.setI 0x0FF0).I.toNat + (15 : RegIdx).toNat ≤ 0xFFF := by decide

theorem witness_RegistersAreLoaded :
    (State.reset.setI 0x0FFF).I.toNat + (1 : RegIdx).toNat > 0xFFF ∧
    (State.reset.setI 0x0FFF).I.toNat + (0 : RegIdx).toNat ≤ 0xFFF := by decide

/-- Program P6 at its store, `F155` at 0x206 with `I` = 0x208. -/
theorem witness_StoredWordIsFetchedNext :
    let s : State :=
      { (pair 0x77 0).setReg 0 0x60 with pc := 0x0206, I := 0x0208, memory := [(0x206, 0xF1), (0x207, 0x55)] }
    s.mode = .running ∧ s.instrAt = some (.storeRegs 1) ∧ s.I.toNat + (1 : RegIdx).toNat ≤ 0xFFF ∧
    (1 : RegIdx).toNat = (0 : RegIdx).toNat + 1 ∧ s.pc.toNat + 2 = s.I.toNat + (0 : RegIdx).toNat := by decide +kernel

/-- The glyph 0 at the top left corner covers pixel (0, 0), which is off in one frame and on in another. -/
theorem witness_DrawTogglesCoveredPixels :
    ((5 : BitVec 4).toNat > 0 → (State.reset.setI 0x0050).I.toNat + (5 : BitVec 4).toNat - 1 ≤ 0xFFF) ∧
    SpriteCovers (State.reset.setI 0x0050) 0 0 5 0 0 ∧
    ({ State.reset with fb := 1 } : State).pixel 0 0 = true :=
  ⟨by decide, ⟨0, 0, by decide, by decide, by decide, by decide, by decide +kernel⟩, by decide +kernel⟩

/-- It does not cover pixel (1, 1); and in an empty frame no pixel is on. -/
theorem witness_DrawTogglesCoveredPixels_outside :
    ¬SpriteCovers (State.reset.setI 0x0050) 0 0 5 1 1 ∧ ∀ cx cy, (State.reset.setI 0x0050).pixel cx cy = false := by
  refine ⟨?_, fun cx cy => by simp [State.pixel, State.reset]⟩
  rintro ⟨r, c, hr, hc, h1, h2, h⟩
  obtain rfl : r = 1 := by omega
  obtain rfl : c = 1 := by omega
  revert h
  decide +kernel

theorem witness_DrawOutsideMemoryFaults :
    (2 : BitVec 4).toNat > 0 ∧ (State.reset.setI 0x0FFF).I.toNat + (2 : BitVec 4).toNat - 1 > 0xFFF := by decide

/-- The highest base at which two rows can be drawn. -/
theorem witness_DrawTwiceRestoresFrame :
    (0 : RegIdx) ≠ 0xF ∧ (1 : RegIdx) ≠ 0xF ∧
    ((2 : BitVec 4).toNat > 0 → (State.reset.setI 0x0FFE).I.toNat + (2 : BitVec 4).toNat - 1 ≤ 0xFFF) := by decide

/-- A first draw that turns a pixel on, and, in the second line, one in a full frame that turns none on. -/
theorem witness_DrawTwiceRestoresFrame_flag :
    (∃ t, exec (.drw 0 1 5) (State.reset.setI 0x0050) = .next t ∧
      (!(State.reset.setI 0x0050).pixel 0 0 && t.pixel 0 0) = true) ∧
    (∀ cx < 64, ∀ cy < 32, ({ State.reset with fb := BitVec.allOnes 2048 } : State).pixel cx cy = true) := by
  refine ⟨exists_of_meets (by decide +kernel), fun cx hx cy hy => ?_⟩
  simp only [State.pixel, cellIndex, BitVec.getLsbD_allOnes, decide_eq_true_eq]
  omega

theorem witness_KeySkipsFollowKeyLevel : ((pair 0 0x0F).reg 2).toNat ≤ 0x0F := by decide +kernel

theorem witness_KeyIndexAboveFifteenFaults : ((pair 0 0x10).reg 2).toNat > 0x0F := by decide +kernel

theorem witness_DelayTimerIsReadBeforeTick :
    (fresh 0xF107).mode = .running ∧ (fresh 0xF107).instrAt = some (.ldVxDt 1) := by decide +kernel

theorem witness_TimersAreSetThenTicked :
    (fresh 0xF115).mode = .running ∧ (fresh 0xF115).instrAt = some (.ldDtVx 1) ∧
    (fresh 0xF118).mode = .running ∧ (fresh 0xF118).instrAt = some (.ldStVx 1) := by decide +kernel

theorem witness_RegistersChangeOnlyByNameOrFlag :
    ∃ t, exec (.addReg 1 2) (pair 0xFF 1) = .next t ∧
      (t.reg 1 != (pair 0xFF 1).reg 1 && t.reg 0xF != (pair 0xFF 1).reg 0xF) = true :=
  exists_of_meets (by decide +kernel)

theorem witness_MemoryChangesOnlyByStores :
    ∃ t, step ((indexed 0 0xFF 0x0FFD).withFetchWord 16 0xF033) = .next t ∧
      (t.memory.read 0xFFF != ((indexed 0 0xFF 0x0FFD).withFetchWord 16 0xF033).memory.read 0xFFF) = true :=
  exists_of_meets (by decide +kernel)

theorem witness_MemoryChangesOnlyByStores_registers :
    ∃ t, step ((indexed 0 1 0x0FFF).withFetchWord 16 0xF055) = .next t ∧
      (t.memory.read 0xFFF != ((indexed 0 1 0x0FFF).withFetchWord 16 0xF055).memory.read 0xFFF) = true :=
  exists_of_meets (by decide +kernel)

theorem witness_FrameChangesOnlyByGraphics :
    (∃ t, step { fresh 0x00E0 with fb := 1 } = .next t ∧ (t.fb != 1 && t.dirty) = true) ∧
    (∃ t, step (({ fresh 0xD015 with dirty := true } : State).setI 0x0050) = .next t ∧ (t.fb != 0 && t.dirty) = true) :=
  ⟨exists_of_meets (by decide +kernel), exists_of_meets (by decide +kernel)⟩

theorem witness_StackMovesOnlyByCallAndReturn :
    (∃ t, step (fresh 0x220A) = .next t ∧ (t.sp.val == 1 && t.stack[0]? != State.reset.stack[0]?) = true) ∧
    (∃ t, step { fresh 0x00EE with sp := 1 } = .next t ∧ (t.sp.val == 0) = true) :=
  ⟨exists_of_meets (by decide +kernel), exists_of_meets (by decide +kernel)⟩

theorem witness_EdgeFlagIsConsumedOnlyWhileWaiting :
    (∃ t, step waiting = .next t ∧ (!t.keyEdge) = true) ∧
    (∃ t, step { fresh 0x6A2B with keyEdge := true } = .next t ∧ t.keyEdge = true) :=
  ⟨exists_of_meets (by decide +kernel), exists_of_meets (by decide +kernel)⟩

theorem witness_KeyTargetIsWrittenOnlyByKeyWait :
    (fresh 0xFF0A).mode = .running ∧ (fresh 0xFF0A).instrAt = some (.ldVxK 15) ∧
    (∃ t, step (fresh 0xFF0A) = .next t ∧ (t.keyTarget == 15) = true) ∧
    (fresh 0x6A2B).instrAt = some (.ldImm 10 0x2B) ∧ ∃ t, step (fresh 0x6A2B) = .next t ∧ (t.keyTarget == 0) = true :=
  ⟨by decide +kernel, by decide +kernel, exists_of_meets (by decide +kernel), by decide +kernel,
    exists_of_meets (by decide +kernel)⟩

/-- One step from each mode; the running ones lead to each mode. -/
theorem witness_ModeTransitionsAreExactly :
    (∃ t, step faulted = .next t ∧ (t.mode == .faulted) = true) ∧
    (∃ t, step waiting = .next t ∧ (t.mode == .running) = true) ∧
    (∃ t, step { waiting with keys := 0 } = .next t ∧ (t.mode == .waitingForKey) = true) ∧
    (∃ t, step (fresh 0xF20A) = .next t ∧ (t.mode == .waitingForKey) = true) ∧
    (∃ t, step (fresh 0x00EE) = .next t ∧ (t.mode == .faulted) = true) ∧
    (∃ t, step (fresh 0x6A2B) = .next t ∧ (t.mode == .running) = true) :=
  ⟨exists_of_meets (by decide +kernel), exists_of_meets (by decide +kernel), exists_of_meets (by decide +kernel),
    exists_of_meets (by decide +kernel), exists_of_meets (by decide +kernel), exists_of_meets (by decide +kernel)⟩

theorem witness_IdleStepChangesOnlyTimers : (fresh 0x1200).Idle :=
  ⟨by decide +kernel, 0x200, by decide +kernel, by decide +kernel⟩

theorem witness_SoundTimerIsReadByNoInstruction :
    (∃ t, exec (.ldVxDt 1) State.reset = .next t ∧ (t.soundTimer == 0) = true) ∧
    (∃ t, exec (.ldStVx 1) (pair 9 0) = .next t ∧ (t.soundTimer == 9) = true) ∧
    ∀ x, Instr.ldVxDt 1 ≠ .ldStVx x :=
  ⟨exists_of_meets (by decide +kernel), exists_of_meets (by decide +kernel), nofun⟩

/-- Two stacks that agree below `sp` = 1 and nowhere above. -/
theorem witness_StaleStackEntriesAreUnobservable :
    (∀ k < 1, ((Vector.replicate 16 (0xFFFF : Word)).set 0 0)[k]? = State.reset.stack[k]?) ∧
    ∃ t, exec .ret { State.reset with sp := 1 } = .next t ∧ (t.pc == 2) = true :=
  ⟨by decide +kernel, exists_of_meets (by decide +kernel)⟩

/-- The last byte that fits, and the first address past an empty program. -/
theorem witness_ProgramLoadLaysTheImage :
    3583 < 3584 ∧ (List.replicate 4000 (7 : Byte))[3583]? = some 7 ∧
    (0x200 + min (0 : Nat) 3584 ≤ 0x200) ∧
    ({ core := State.reset, phase := .stepping, font := fontset } : Bench).phase = .stepping :=
  ⟨by decide, by rw [List.getElem?_replicate]; rfl, by decide, rfl⟩

/-- A waiting state meets the invariant. -/
theorem witness_EveryStepKeepsInvariant : waiting.Inv ∧ ∃ t, step waiting = .next t ∧ (t.pc == 0x0208) = true :=
  ⟨⟨by decide +kernel, by decide, by decide, by decide +kernel, by decide +kernel, by decide, by decide⟩,
    exists_of_meets (by decide +kernel)⟩

/-- A faulted state meets it too. -/
theorem witness_EveryStepKeepsInvariant_faulted : faulted.Inv :=
  ⟨by decide +kernel, by decide, by decide, by decide +kernel, by decide, by decide, by decide +kernel⟩

/-- A faulted core that is reset. -/
theorem witness_EveryHostMoveKeepsInvariant :
    ({ core := faulted, phase := .stepping, font := fontset } : Bench).Inv ∧
    ∃ c, ({ core := faulted, phase := .stepping, font := fontset } : Bench).move .reset = .next c :=
  ⟨⟨witness_EveryStepKeepsInvariant_faulted, fun h => absurd rfl h⟩, _, rfl⟩

/-- A run that reaches a next state: load one byte, press a key, take a step. -/
theorem witness_EveryRunMeetsInvariant :
    ∃ b, (Bench.start fontset true).run [.move (.load [0x12, 0x00]), .move (.setKeys 4), .step] = .next b := ⟨_, rfl⟩

end Tests
end

section
/-! PROOFS. Jumps and register-compare skips (spec/41_control_flow.md R101, R103 to R106): each is a write of `pc`. -/

namespace Sys2Proof.Machine

/-! ### Writes of `pc` -/

theorem State.setPc_onlyChanges (s : State) (a : Word) : OnlyChanges [.pc] s (s.setPc a) := by
  intro p hp
  cases p with
  | pc => exact absurd List.mem_cons_self hp
  | _ => simp [Kept, State.reg]

theorem State.skipIf_onlyChanges (s : State) (c : Bool) : OnlyChanges [.pc] s (s.skipIf c) := s.setPc_onlyChanges _

/-- The zero extension of an address operand loses nothing (R63). -/
@[simp] theorem addrOperand_toNat (nnn : BitVec 12) : (addrOperand nnn).toNat = nnn.toNat :=
  BitVec.toNat_setWidth_of_le (by decide)

/-! ### What `exec` answers -/

theorem exec_jp (nnn : BitVec 12) (s : State) : exec (.jp nnn) s = .next (s.setPc (addrOperand nnn)) := rfl

theorem exec_seImm (x : RegIdx) (nn : Byte) (s : State) :
    exec (.seImm x nn) s = .next (s.skipIf (s.reg x == nn)) := rfl

theorem exec_sneImm (x : RegIdx) (nn : Byte) (s : State) :
    exec (.sneImm x nn) s = .next (s.skipIf (s.reg x != nn)) := rfl

theorem exec_seReg (x y : RegIdx) (s : State) : exec (.seReg x y) s = .next (s.skipIf (s.reg x == s.reg y)) := rfl

theorem exec_sneReg (x y : RegIdx) (s : State) : exec (.sneReg x y) s = .next (s.skipIf (s.reg x != s.reg y)) := rfl

/-- An instruction that answers `skipIf` on the truth value of `p` moves `pc` by 4 or 2 as `p` says, and only `pc`. -/
theorem exec_skips_of_iff {i : Instr} {s : State} {c : Bool} {p : Prop} [Decidable p]
    (h : exec i s = .next (s.skipIf c)) (hc : c = true ↔ p) :
    ∃ t, exec i s = .next t ∧ t.pc = (if p then s.pc + 4 else s.pc + 2) ∧ OnlyChanges [.pc] s t :=
  ⟨s.skipIf c, h, by simp only [State.skipIf_pc, hc], s.skipIf_onlyChanges c⟩

/-! ### The obligations -/

/-- Settles O17: the answer is the state with `pc` written, and the 12-bit target survives its zero extension. -/
theorem jumpSetsPc : Obligations.JumpSetsPc := by
  intro nnn s
  exact ⟨_, exec_jp nnn s, addrOperand_toNat nnn, s.setPc_onlyChanges _⟩

/-- Settles O21: each of the four answers `skipIf` on its own comparison. -/
theorem compareSkipsMovePcByTwoOrFour : Obligations.CompareSkipsMovePcByTwoOrFour := by
  intro x y nn s
  exact ⟨exec_skips_of_iff (exec_seImm x nn s) beq_iff_eq, exec_skips_of_iff (exec_sneImm x nn s) bne_iff_ne,
    exec_skips_of_iff (exec_seReg x y s) beq_iff_eq, exec_skips_of_iff (exec_sneReg x y s) bne_iff_ne⟩

end Sys2Proof.Machine
end

section
/-! PROOFS. Immediate load and add, copy and logic (spec/42_alu.md R110, R112 to R116): each is one register write, with no
flag. -/

namespace Sys2Proof.Machine

/-! ### One register written, `pc` moved on -/

theorem State.setReg_advance_onlyChanges (s : State) (x : RegIdx) (v : Byte) :
    OnlyChanges [.regs, .pc] s (s.setReg x v).advance := by
  intro p hp
  cases p with
  | regs | pc => simp at hp
  | _ => simp [Kept]

/-- An instruction whose arm is `writeReg` leaves the value in `V[x]`, keeps every other register and moves `pc` by 2. -/
theorem exec_writes_of_eq {i : Instr} {s : State} {x : RegIdx} {v : Byte} (h : exec i s = writeReg x v s) :
    ∃ t, exec i s = .next t ∧ t.reg x = v ∧ (∀ z, z ≠ x → t.reg z = s.reg z) ∧ t.pc = s.pc + 2 ∧
      OnlyChanges [.regs, .pc] s t :=
  ⟨(s.setReg x v).advance, h, s.reg_setReg_self x v, fun _ hz => s.reg_setReg_of_ne hz v, rfl,
    s.setReg_advance_onlyChanges x v⟩

/-! ### What `exec` answers -/

theorem exec_ldImm (x : RegIdx) (nn : Byte) (s : State) : exec (.ldImm x nn) s = writeReg x nn s := rfl

theorem exec_addImm (x : RegIdx) (nn : Byte) (s : State) :
    exec (.addImm x nn) s = writeReg x (addValue (s.reg x) nn) s := rfl

theorem exec_ldReg (x y : RegIdx) (s : State) : exec (.ldReg x y) s = writeReg x (s.reg y) s := rfl

theorem exec_orReg (x y : RegIdx) (s : State) : exec (.orReg x y) s = writeReg x (s.reg x ||| s.reg y) s := rfl

theorem exec_andReg (x y : RegIdx) (s : State) : exec (.andReg x y) s = writeReg x (s.reg x &&& s.reg y) s := rfl

theorem exec_xorReg (x y : RegIdx) (s : State) : exec (.xorReg x y) s = writeReg x (s.reg x ^^^ s.reg y) s := rfl

/-- The sum wraps (R112). -/
theorem addValue_toNat (a b : Byte) : (addValue a b).toNat = (a.toNat + b.toNat) % 256 := BitVec.toNat_ofNat _ _

/-! ### The obligations -/

/-- Settles O22: each of the two is one register write, the second of the wrapping sum. -/
theorem immediateLoadAndAdd : Obligations.ImmediateLoadAndAdd := by
  intro x nn s
  obtain ⟨t, ht, hsum, hframe⟩ := exec_writes_of_eq (exec_addImm x nn s)
  have hwraps : (t.reg x).toNat = ((s.reg x).toNat + nn.toNat) % 256 := by rw [hsum, addValue_toNat]
  exact ⟨exec_writes_of_eq (exec_ldImm x nn s), t, ht, hwraps, hframe⟩

/-- Settles O23: each of the four is one register write of its own result. -/
theorem copyAndLogic : Obligations.CopyAndLogic := by
  intro x y s
  exact ⟨exec_writes_of_eq (exec_ldReg x y s), exec_writes_of_eq (exec_orReg x y s),
    exec_writes_of_eq (exec_andReg x y s), exec_writes_of_eq (exec_xorReg x y s)⟩

end Sys2Proof.Machine
end

section
/-! PROOFS. The index register loaded and added to (spec/43_index_memory.md R130, R131): each is one write of `I`, with no
flag and no range check. -/

namespace Sys2Proof.Machine

/-! ### `I` written, `pc` moved on -/

theorem State.setI_advance_onlyChanges (s : State) (a : Word) : OnlyChanges [.index, .pc] s (s.setI a).advance := by
  intro p hp
  cases p with
  | index | pc => simp at hp
  | _ => simp [Kept]

/-- An instruction that answers `I` written and `pc` moved on leaves the value in `I` and changes nothing else. -/
theorem exec_writesI_of_eq {i : Instr} {s : State} {a : Word} {k : Nat} (h : exec i s = .next (s.setI a).advance)
    (ha : a.toNat = k) :
    ∃ t, exec i s = .next t ∧ t.I.toNat = k ∧ t.pc = s.pc + 2 ∧ OnlyChanges [.index, .pc] s t :=
  ⟨(s.setI a).advance, h, ha, rfl, s.setI_advance_onlyChanges a⟩

/-! ### What `exec` answers -/

theorem exec_ldI (nnn : BitVec 12) (s : State) : exec (.ldI nnn) s = .next (s.setI (addrOperand nnn)).advance := rfl

theorem exec_addI (x : RegIdx) (s : State) :
    exec (.addI x) s = .next (s.setI (s.I + byteOperand (s.reg x))).advance := rfl

/-- The zero extension of a byte operand loses nothing. -/
@[simp] theorem byteOperand_toNat (v : Byte) : (byteOperand v).toNat = v.toNat :=
  BitVec.toNat_setWidth_of_le (by decide)

/-- The sum wraps at 65536, not at the 4096 of the memory (R131). -/
theorem add_byteOperand_toNat (a : Word) (v : Byte) : (a + byteOperand v).toNat = (a.toNat + v.toNat) % 65536 := by
  rw [BitVec.toNat_add, byteOperand_toNat]

/-! ### The obligation -/

/-- Settles O28: each of the two is one write of `I`, the first of the whole address and the second of the wrapping sum. -/
theorem indexLoadAndAdd : Obligations.IndexLoadAndAdd := by
  intro x nnn s
  exact ⟨exec_writesI_of_eq (exec_ldI nnn s) (addrOperand_toNat nnn),
    exec_writesI_of_eq (exec_addI x s) (add_byteOperand_toNat s.I (s.reg x))⟩

end Sys2Proof.Machine
end

section
/-! PROOFS. The clear of the screen (spec/44_graphics.md R140): one write of the whole frame, with no fault and no flag. -/

namespace Sys2Proof.Machine

/-! ### The frame replaced, `pc` moved on -/

/-- Replacing the frame touches no register (R140), `VF` included. -/
theorem State.frame_advance_onlyChanges (s : State) (fb : Frame) :
    OnlyChanges [.frame, .dirty, .pc] s ({ s with fb := fb, dirty := true } : State).advance := by
  intro p hp
  cases p with
  | frame | dirty | pc => simp at hp
  | regs => exact State.reg_advance { s with fb := fb, dirty := true }
  | _ => simp [Kept]

/-! ### What `exec` answers -/

theorem exec_cls (s : State) : exec .cls s = .next ({ s with fb := 0, dirty := true } : State).advance := rfl

/-! ### The obligation -/

/-- Settles O34: the answer is the state with the frame 0, of which every bit is off, and the mark set whatever it was. -/
theorem clearTurnsEveryPixelOff : Obligations.ClearTurnsEveryPixelOff := by
  intro s
  exact ⟨_, exec_cls s, fun _ => BitVec.getLsbD_zero, rfl, rfl, s.frame_advance_onlyChanges 0⟩

end Sys2Proof.Machine
end

section
/-! PROOFS. The delay timer read (spec/45_keypad_timers.md R152): one register write, which the tick of its own step follows
(spec/40_step_cycle.md R86). -/

namespace Sys2Proof.Machine

/-! ### A running step -/

/-- A running step that fetches an instruction is its execution and the end of the step (R82 to R87). -/
theorem step_of_instrAt {s : State} {i : Instr} (hrun : s.mode = .running) (hi : s.instrAt = some i) :
    step s = retire (exec i s) := by
  simp only [step, hrun, fetchDecode_of_instrAt hi]

/-- The end of a step whose instruction raised no fault is the tick and the result (R86, R87). -/
theorem retire_next_of_not_faulted {t : State} (ht : t.faulted = false) : retire (.next t) = .next t.finish := by
  simp only [retire, ht, Bool.false_eq_true, if_false]

/-- A running step whose instruction leaves the fault report as it was answers that instruction's state, finished. -/
theorem step_eq_finish_of_exec {s t : State} {i : Instr} (hrun : s.mode = .running) (hi : s.instrAt = some i)
    (hexec : exec i s = .next t) (hreport : Kept .faultReport s t) : step s = .next t.finish := by
  have ht : t.faulted = false := hreport.1.trans (State.mode_eq_running.mp hrun).1
  rw [step_of_instrAt hrun hi, hexec, retire_next_of_not_faulted ht]

/-! ### What `exec` answers -/

theorem exec_ldVxDt (x : RegIdx) (s : State) : exec (.ldVxDt x) s = writeReg x s.delayTimer s := rfl

/-! ### The obligation -/

/-- Settles O41: the instruction is one register write that keeps the delay timer, so the tick after it starts from the
value read and leaves `V[x]` alone. -/
theorem delayTimerIsReadBeforeTick : Obligations.DelayTimerIsReadBeforeTick := by
  intro x s
  obtain ⟨t, hexec, hread, hframe⟩ := exec_writes_of_eq (exec_ldVxDt x s)
  refine ⟨⟨t, hexec, hread, hframe⟩, fun hrun hi => ?_⟩
  obtain ⟨-, -, honly⟩ := hframe
  have htimer : t.delayTimer = s.delayTimer := honly .delayTimer (by decide)
  have hticked : t.finish.delayTimer.toNat = s.delayTimer.toNat - 1 := by
    rw [State.finish_delayTimer, tickTimer_toNat, htimer]
  exact ⟨t.finish, step_eq_finish_of_exec hrun hi hexec (honly .faultReport (by decide)), hread, hticked⟩

end Sys2Proof.Machine
end

section
/-! PROOFS. The state that reset leaves (spec/70_reset_and_hazards.md R191). -/

namespace Sys2Proof.Machine

/-! ### The fields reset writes -/

@[simp] theorem State.resetWith_faulted (font : Vector Byte 80) (s : State) : (s.resetWith font).faulted = false := rfl

@[simp] theorem State.resetWith_halted (font : Vector Byte 80) (s : State) : (s.resetWith font).halted = false := rfl

@[simp] theorem State.resetWith_pc (font : Vector Byte 80) (s : State) : (s.resetWith font).pc = 0x0200 := rfl

/-- Reset clears both bits that could hold the core in another mode. -/
theorem State.resetWith_mode (font : Vector Byte 80) (s : State) : (s.resetWith font).mode = .running :=
  State.mode_eq_running.mpr ⟨s.resetWith_faulted font, s.resetWith_halted font⟩

/-! ### The obligation -/

/-- Settles O54: reset clears the fault and the wait, whatever the state was, and writes `pc`. -/
theorem resetRunsAt0x200 : Obligations.ResetRunsAt0x200 := by
  intro font s
  exact ⟨s.resetWith_mode font, s.resetWith_pc font⟩

end Sys2Proof.Machine
end

section
/-! PROOFS. The encoding (spec/30_encoding.md R61 to R67): decode after encode, encode after decode, and the opcode map. -/

namespace Sys2Proof

/-! ### Decode after encode -/

/-- The nibble the decoder branches on and the fields it hands on are those the word was built from. -/
theorem decodeWord_encode (i : Instr) : decodeWord (encode i) = some i := by
  cases i with
  | cls | ret => decide +kernel
  | _ => simp [encode, decodeWord, decodeGroup8, decodeGroupF]

theorem decodeBytes_encodeBytes (i : Instr) (rest : List Byte) :
    decodeBytes (encodeBytes i ++ rest) = .ok (i, rest) := by
  simp only [encodeBytes, bytesOfWord, List.cons_append, List.nil_append, decodeBytes, wordOfBytes_bytesOfWord,
    decodeWord_encode]

/-! ### Encode after decode -/

theorem formNNN_of_fieldOp {w : Word} {op : BitVec 4} (h : (fieldOp w).toNat = op.toNat) :
    formNNN op (fieldNNN w) = w := by
  rw [← BitVec.eq_of_toNat_eq h, formNNN_fields]

theorem formXNN_of_fieldOp {w : Word} {op : BitVec 4} (h : (fieldOp w).toNat = op.toNat) :
    formXNN op (fieldX w) (fieldNN w) = w := by
  rw [← BitVec.eq_of_toNat_eq h, formXNN_fields]

theorem formXYN_of_fieldOp {w : Word} {op : BitVec 4} (h : (fieldOp w).toNat = op.toNat) :
    formXYN op (fieldX w) (fieldY w) (fieldN w) = w := by
  rw [← BitVec.eq_of_toNat_eq h, formXYN_fields]

theorem formXNN_of_fields {w : Word} {op : BitVec 4} {nn : Byte} (h : (fieldOp w).toNat = op.toNat)
    (hn : fieldNN w = nn) : formXNN op (fieldX w) nn = w :=
  hn ▸ formXNN_of_fieldOp h

theorem formXYN_of_fields {w : Word} {op n : BitVec 4} (h : (fieldOp w).toNat = op.toNat) (hn : fieldN w = n) :
    formXYN op (fieldX w) (fieldY w) n = w :=
  hn ▸ formXYN_of_fieldOp h

/-- Group 8 puts its minor opcode back where it was read. -/
theorem encode_of_decodeGroup8 {x y : RegIdx} {n : BitVec 4} {i : Instr} (h : decodeGroup8 x y n.toNat = some i) :
    encode i = formXYN 0x8 x y n := by
  unfold decodeGroup8 at h
  split at h
  case h_10 => cases h
  all_goals
    next hn =>
    cases h
    exact congrArg (formXYN 0x8 x y) (BitVec.eq_of_toNat_eq hn.symm)

/-- Group F puts its low byte back where it was read. -/
theorem encode_of_decodeGroupF {x : RegIdx} {nn : Byte} {i : Instr} (h : decodeGroupF x nn = some i) :
    encode i = formXNN 0xF x nn := by
  unfold decodeGroupF at h
  iterate 9
    split at h
    · next hn => cases h; rw [hn]; rfl
  cases h

/-- Each nibble the decoder branches on comes back as the encoder's, with the word's own fields behind it. -/
theorem encode_of_decodeWord {w : Word} {i : Instr} (h : decodeWord w = some i) : encode i = w := by
  unfold decodeWord at h
  split at h
  case h_1 =>
    split at h
    · next hw => cases h; exact hw.symm
    · split at h
      · next hw => cases h; exact hw.symm
      · cases h
  case h_2 | h_3 | h_11 => next hop => cases h; exact formNNN_of_fieldOp hop
  case h_4 | h_5 | h_7 | h_8 | h_12 => next hop => cases h; exact formXNN_of_fieldOp hop
  case h_6 | h_10 =>
    next hop =>
    split at h
    · next hn => cases h; exact formXYN_of_fields hop hn
    · cases h
  case h_9 => next hop => exact (encode_of_decodeGroup8 h).trans (formXYN_of_fieldOp hop)
  case h_13 => next hop => cases h; exact formXYN_of_fieldOp hop
  case h_14 =>
    next hop =>
    split at h
    · next hn => cases h; exact formXNN_of_fields hop hn
    · split at h
      · next hn => cases h; exact formXNN_of_fields hop hn
      · cases h
  case h_15 => next hop => exact (encode_of_decodeGroupF h).trans (formXNN_of_fieldOp hop)
  case h_16 => cases h

/-- The decoder and the encoder are inverse to each other on the legal words. -/
theorem decodeWord_eq_some_iff {w : Word} {i : Instr} : decodeWord w = some i ↔ encode i = w :=
  ⟨encode_of_decodeWord, fun h => h ▸ decodeWord_encode i⟩

/-! ### The opcode map -/

/-- Where a row's mask covers a field, an accepted word has the row's bits in it. -/
theorem extractLsb'_of_accepts {m : String} {mask bits w : Word} {start len : Nat}
    (h : OpcodeRow.accepts ⟨m, mask, bits⟩ w = true) (hm : mask.extractLsb' start len = BitVec.allOnes len) :
    w.extractLsb' start len = bits.extractLsb' start len := by
  rw [← show w &&& mask = bits from beq_iff_eq.mp h, BitVec.extractLsb'_and, hm, BitVec.and_allOnes]

section Forms

variable {m : String} {op n : BitVec 4} {nn : Byte} {w : Word}

/-- A row that fixes the first nibble accepts only words of its form; `formXNN` and `formXYN` likewise below. -/
theorem formNNN_of_accepts (h : OpcodeRow.accepts ⟨m, 0xF000, formNNN op 0⟩ w = true) : formNNN op (fieldNNN w) = w :=
  formNNN_of_fieldOp (congrArg BitVec.toNat ((extractLsb'_of_accepts h (by decide)).trans (fieldOp_formNNN _ _)))

theorem formXNN_of_accepts (h : OpcodeRow.accepts ⟨m, 0xF000, formNNN op 0⟩ w = true) :
    formXNN op (fieldX w) (fieldNN w) = w :=
  formXNN_of_fieldOp (congrArg BitVec.toNat ((extractLsb'_of_accepts h (by decide)).trans (fieldOp_formNNN _ _)))

theorem formXYN_of_accepts (h : OpcodeRow.accepts ⟨m, 0xF000, formNNN op 0⟩ w = true) :
    formXYN op (fieldX w) (fieldY w) (fieldN w) = w :=
  formXYN_of_fieldOp (congrArg BitVec.toNat ((extractLsb'_of_accepts h (by decide)).trans (fieldOp_formNNN _ _)))

theorem formXY_of_accepts (h : OpcodeRow.accepts ⟨m, 0xF00F, formXYN op 0 0 n⟩ w = true) :
    formXYN op (fieldX w) (fieldY w) n = w :=
  formXYN_of_fields (congrArg BitVec.toNat ((extractLsb'_of_accepts h (by decide)).trans (fieldOp_formXYN _ _ _ _)))
    ((extractLsb'_of_accepts h (by decide)).trans (fieldN_formXYN _ _ _ _))

theorem formX_of_accepts (h : OpcodeRow.accepts ⟨m, 0xF0FF, formXNN op 0 nn⟩ w = true) :
    formXNN op (fieldX w) nn = w :=
  formXNN_of_fields (congrArg BitVec.toNat ((extractLsb'_of_accepts h (by decide)).trans (fieldOp_formXNN _ _ _)))
    ((extractLsb'_of_accepts h (by decide)).trans (fieldNN_formXNN _ _ _))

/-- A row without operands accepts its own bits only. -/
theorem bits_of_accepts {b : Word} (h : OpcodeRow.accepts ⟨m, 0xFFFF, b⟩ w = true) : b = w :=
  (beq_iff_eq.mp h).symm.trans BitVec.and_allOnes

end Forms

/-- A word that a row accepts is the encoding of an instruction with the row's mnemonic. -/
theorem exists_encode_of_accepts (w : Word) :
    ∀ r ∈ opcodeMap, r.accepts w = true → ∃ i, encode i = w ∧ i.mnemonic = r.mnemonic := by
  simp only [opcodeMap, List.cons_append, List.nil_append, List.forall_mem_cons, List.not_mem_nil, false_imp_iff,
    implies_true, and_true]
  exact ⟨fun h => ⟨.cls, bits_of_accepts h, rfl⟩, fun h => ⟨.ret, bits_of_accepts h, rfl⟩,
    fun h => ⟨.jp _, formNNN_of_accepts h, rfl⟩, fun h => ⟨.call _, formNNN_of_accepts h, rfl⟩,
    fun h => ⟨.seImm _ _, formXNN_of_accepts h, rfl⟩, fun h => ⟨.sneImm _ _, formXNN_of_accepts h, rfl⟩,
    fun h => ⟨.seReg _ _, formXY_of_accepts h, rfl⟩, fun h => ⟨.ldImm _ _, formXNN_of_accepts h, rfl⟩,
    fun h => ⟨.addImm _ _, formXNN_of_accepts h, rfl⟩, fun h => ⟨.ldReg _ _, formXY_of_accepts h, rfl⟩,
    fun h => ⟨.orReg _ _, formXY_of_accepts h, rfl⟩, fun h => ⟨.andReg _ _, formXY_of_accepts h, rfl⟩,
    fun h => ⟨.xorReg _ _, formXY_of_accepts h, rfl⟩, fun h => ⟨.addReg _ _, formXY_of_accepts h, rfl⟩,
    fun h => ⟨.sub _ _, formXY_of_accepts h, rfl⟩, fun h => ⟨.shr _ _, formXY_of_accepts h, rfl⟩,
    fun h => ⟨.subn _ _, formXY_of_accepts h, rfl⟩, fun h => ⟨.shl _ _, formXY_of_accepts h, rfl⟩,
    fun h => ⟨.sneReg _ _, formXY_of_accepts h, rfl⟩, fun h => ⟨.ldI _, formNNN_of_accepts h, rfl⟩,
    fun h => ⟨.rnd _ _, formXNN_of_accepts h, rfl⟩, fun h => ⟨.drw _ _ _, formXYN_of_accepts h, rfl⟩,
    fun h => ⟨.skp _, formX_of_accepts h, rfl⟩, fun h => ⟨.sknp _, formX_of_accepts h, rfl⟩,
    fun h => ⟨.ldVxDt _, formX_of_accepts h, rfl⟩, fun h => ⟨.ldVxK _, formX_of_accepts h, rfl⟩,
    fun h => ⟨.ldDtVx _, formX_of_accepts h, rfl⟩, fun h => ⟨.ldStVx _, formX_of_accepts h, rfl⟩,
    fun h => ⟨.addI _, formX_of_accepts h, rfl⟩, fun h => ⟨.ldF _, formX_of_accepts h, rfl⟩,
    fun h => ⟨.ldB _, formX_of_accepts h, rfl⟩, fun h => ⟨.storeRegs _, formX_of_accepts h, rfl⟩,
    fun h => ⟨.loadRegs _, formX_of_accepts h, rfl⟩⟩

/-- Every instruction's word is accepted by the row with its mnemonic. -/
theorem ownRowAccepts : ∀ i : Instr, Laws.OwnRowAccepts.Statement i
  | .cls => Laws.OwnRowAccepts.cls
  | .ret => Laws.OwnRowAccepts.ret
  | .jp nnn => Laws.OwnRowAccepts.jp nnn
  | .call nnn => Laws.OwnRowAccepts.call nnn
  | .seImm x nn => Laws.OwnRowAccepts.seImm x nn
  | .sneImm x nn => Laws.OwnRowAccepts.sneImm x nn
  | .seReg x y => Laws.OwnRowAccepts.seReg x y
  | .ldImm x nn => Laws.OwnRowAccepts.ldImm x nn
  | .addImm x nn => Laws.OwnRowAccepts.addImm x nn
  | .ldReg x y => Laws.OwnRowAccepts.ldReg x y
  | .orReg x y => Laws.OwnRowAccepts.orReg x y
  | .andReg x y => Laws.OwnRowAccepts.andReg x y
  | .xorReg x y => Laws.OwnRowAccepts.xorReg x y
  | .addReg x y => Laws.OwnRowAccepts.addReg x y
  | .sub x y => Laws.OwnRowAccepts.sub x y
  | .shr x y => Laws.OwnRowAccepts.shr x y
  | .subn x y => Laws.OwnRowAccepts.subn x y
  | .shl x y => Laws.OwnRowAccepts.shl x y
  | .sneReg x y => Laws.OwnRowAccepts.sneReg x y
  | .ldI nnn => Laws.OwnRowAccepts.ldI nnn
  | .rnd x nn => Laws.OwnRowAccepts.rnd x nn
  | .drw x y n => Laws.OwnRowAccepts.drw x y n
  | .skp x => Laws.OwnRowAccepts.skp x
  | .sknp x => Laws.OwnRowAccepts.sknp x
  | .ldVxDt x => Laws.OwnRowAccepts.ldVxDt x
  | .ldVxK x => Laws.OwnRowAccepts.ldVxK x
  | .ldDtVx x => Laws.OwnRowAccepts.ldDtVx x
  | .ldStVx x => Laws.OwnRowAccepts.ldStVx x
  | .addI x => Laws.OwnRowAccepts.addI x
  | .ldF x => Laws.OwnRowAccepts.ldF x
  | .ldB x => Laws.OwnRowAccepts.ldB x
  | .storeRegs x => Laws.OwnRowAccepts.storeRegs x
  | .loadRegs x => Laws.OwnRowAccepts.loadRegs x

/-- The mnemonic of a row names the row. -/
theorem opcodeRow_eq_of_mnemonic : ∀ r ∈ opcodeMap, ∀ r' ∈ opcodeMap, r.mnemonic = r'.mnemonic → r = r' := by
  decide +kernel

/-! ### The obligations -/

/-- Settles O1: by cases on the instruction, each read back from the fields of its form. -/
theorem encodeThenDecodeIsIdentity : Obligations.EncodeThenDecodeIsIdentity := decodeWord_encode

/-- Settles O2: by cases on the decoder's nibbles, each put back where it was read. -/
theorem decodeThenEncodeIsIdentity : Obligations.DecodeThenEncodeIsIdentity := fun _ _ => encode_of_decodeWord

/-- Settles O3: an accepted word is an encoding under the row's mnemonic; and an encoding is accepted by the row of its
mnemonic, of which there is one. -/
theorem decoderFollowsOpcodeMap : Obligations.DecoderFollowsOpcodeMap := by
  intro w r hr
  simp only [decodeWord_eq_some_iff]
  constructor
  · exact exists_encode_of_accepts w r hr
  · rintro ⟨i, rfl, hi⟩
    obtain ⟨r', hr', hm, hacc⟩ := ownRowAccepts i
    rwa [← opcodeRow_eq_of_mnemonic r' hr' r hr (hm.trans hi)]

/-- Settles O4: the two bytes of a word make the word again, which decodes to its instruction. -/
theorem encodedBytesDecode : Obligations.EncodedBytesDecode := decodeBytes_encodeBytes

/-- Settles O5: the nine words are encodings, and the four others evaluate to none. -/
theorem sampleWordsDecode : Obligations.SampleWordsDecode := by
  have hillegal : decodeWord 0x0000 = none ∧ decodeWord 0xB123 = none ∧ decodeWord 0x5121 = none ∧
      decodeWord 0x812F = none := by decide +kernel
  exact ⟨decodeWord_encode .ret, decodeWord_encode (.call 0x20A), decodeWord_encode (.ldImm 0xA 0x2B),
    decodeWord_encode (.addReg 1 2), decodeWord_encode (.ldI 0x2F0), decodeWord_encode (.storeRegs 2),
    decodeWord_encode (.drw 0 1 4), decodeWord_encode (.skp 2), decodeWord_encode (.ldVxK 2), hillegal⟩

end Sys2Proof
end

section
/-! PROOFS. What an instruction can do (spec/40_step_cycle.md R84, R85): it raises the fault of the table of
spec/60_exceptions.md R163, or it has its effect, a total function of the state. -/

namespace Sys2Proof.Machine

/-! ### The effect of an instruction that does not fault -/

/-- The state an instruction leaves where it raises no fault (`exec_of_no_fault`). -/
def effect (i : Instr) (s : State) : State :=
  match i with
  | .cls => ({ s with fb := 0, dirty := true } : State).advance
  | .ret => { s with sp := ⟨s.sp.val - 1, by omega⟩, pc := s.stack[s.sp.val - 1] + 2 }
  | .jp nnn => s.setPc (addrOperand nnn)
  | .call nnn =>
    { s with
      sp := ⟨min (s.sp.val + 1) 16, by omega⟩, pc := addrOperand nnn, stack := s.stack.setIfInBounds s.sp.val s.pc }
  | .seImm x nn => s.skipIf (s.reg x == nn)
  | .sneImm x nn => s.skipIf (s.reg x != nn)
  | .seReg x y => s.skipIf (s.reg x == s.reg y)
  | .sneReg x y => s.skipIf (s.reg x != s.reg y)
  | .ldImm x nn => (s.setReg x nn).advance
  | .addImm x nn => (s.setReg x (addValue (s.reg x) nn)).advance
  | .ldReg x y => (s.setReg x (s.reg y)).advance
  | .orReg x y => (s.setReg x (s.reg x ||| s.reg y)).advance
  | .andReg x y => (s.setReg x (s.reg x &&& s.reg y)).advance
  | .xorReg x y => (s.setReg x (s.reg x ^^^ s.reg y)).advance
  | .addReg x y => ((s.setFlag (addFlag (s.reg x) (s.reg y))).setReg x (addValue (s.reg x) (s.reg y))).advance
  | .sub x y => ((s.setFlag (subFlag (s.reg x) (s.reg y))).setReg x (subValue (s.reg x) (s.reg y))).advance
  | .shr x _ => ((s.setFlag (shrFlag (s.reg x))).setReg x (shrValue (s.reg x))).advance
  | .subn x y => ((s.setFlag (subFlag (s.reg y) (s.reg x))).setReg x (subValue (s.reg y) (s.reg x))).advance
  | .shl x _ => ((s.setFlag (shlFlag (s.reg x))).setReg x (shlValue (s.reg x))).advance
  | .ldI nnn => (s.setI (addrOperand nnn)).advance
  | .rnd x nn => (s.drawRandom.2.setReg x (Config.randomByte s.draws &&& nn)).advance
  | .drw x y n =>
    (s.setCanvas (drawSprite s.fb (s.reg x).toNat (s.reg y).toNat
      ((List.range n.toNat).map fun j => s.memory.read (s.I.toNat + j)))).advance
  | .skp x => s.skipIf (s.keys.getLsbD (s.reg x).toNat)
  | .sknp x => s.skipIf (!s.keys.getLsbD (s.reg x).toNat)
  | .ldVxDt x => (s.setReg x s.delayTimer).advance
  | .ldVxK x => { s with halted := true, keyTarget := x }
  | .ldDtVx x => ({ s with delayTimer := s.reg x } : State).advance
  | .ldStVx x => ({ s with soundTimer := s.reg x } : State).advance
  | .addI x => (s.setI (s.I + byteOperand (s.reg x))).advance
  | .ldF x => (s.setI (0x050 + 5 * byteOperand (s.reg x))).advance
  | .ldB x => ({ s with memory := s.memory.writeList s.I.toNat (decimalDigits (s.reg x)) } : State).advance
  | .storeRegs x => (({ s with memory := s.memory.writeList s.I.toNat (regRange s x) } : State).advanceI x).advance
  | .loadRegs x =>
    ((s.setRegs ((List.range (x.toNat + 1)).map fun j => s.memory.read (s.I.toNat + j))).advanceI x).advance

/-! ### The conditions of the table -/

section Conditions

variable {s : State} {x y : RegIdx} {n : BitVec 4} {nnn : BitVec 12}

theorem ownFault_ret_eq_none : ownFault .ret s = none ↔ s.sp.val ≠ 0 := by simp [ownFault]

theorem ownFault_call_eq_none : ownFault (.call nnn) s = none ↔ s.sp.val < 16 := by
  have := s.sp.isLt
  simp [ownFault]
  omega

theorem ownFault_drw_eq_none :
    ownFault (.drw x y n) s = none ↔ (n.toNat > 0 → s.I.toNat + n.toNat - 1 ≤ 0xFFF) := by
  simp [ownFault]

theorem ownFault_ldB_eq_none : ownFault (.ldB x) s = none ↔ s.I.toNat + 2 ≤ 0xFFF := by simp [ownFault]

theorem ownFault_storeRegs_eq_none : ownFault (.storeRegs x) s = none ↔ s.I.toNat + x.toNat ≤ 0xFFF := by
  simp [ownFault]

theorem ownFault_loadRegs_eq_none : ownFault (.loadRegs x) s = none ↔ s.I.toNat + x.toNat ≤ 0xFFF := by
  simp [ownFault]

theorem ownFault_skp_eq_none : ownFault (.skp x) s = none ↔ (s.reg x).toNat ≤ 0x0F := by simp [ownFault]

theorem ownFault_sknp_eq_none : ownFault (.sknp x) s = none ↔ (s.reg x).toNat ≤ 0x0F := by simp [ownFault]

end Conditions

/-! ### The two answers of `exec` -/

theorem exec_of_no_fault {i : Instr} {s : State} (h : ownFault i s = none) : exec i s = .next (effect i s) := by
  cases i with
  | ret => exact exec_ret_of_used (ownFault_ret_eq_none.mp h)
  | call nnn =>
    have hfree := ownFault_call_eq_none.mp h
    rw [exec_call_of_free hfree]
    simp [effect, Vector.setIfInBounds, Array.setIfInBounds, hfree]
  | drw x y n => exact exec_drw_in_range (ownFault_drw_eq_none.mp h)
  | skp x => exact exec_skp_of_key (ownFault_skp_eq_none.mp h)
  | sknp x => exact exec_sknp_of_key (ownFault_sknp_eq_none.mp h)
  | ldB x => exact exec_ldB_in_range (ownFault_ldB_eq_none.mp h)
  | storeRegs x => exact exec_storeRegs_in_range (ownFault_storeRegs_eq_none.mp h)
  | loadRegs x => exact exec_loadRegs_in_range (ownFault_loadRegs_eq_none.mp h)
  | _ => rfl

theorem exec_of_fault {i : Instr} {s : State} {c : FaultCause} (h : ownFault i s = some c) :
    exec i s = raiseFault c i s := by
  cases i with
  | ret => obtain ⟨hcond, ⟨⟩⟩ := Option.ite_none_right_eq_some.mp h; exact exec_ret_of_empty hcond
  | call nnn => obtain ⟨hcond, ⟨⟩⟩ := Option.ite_none_right_eq_some.mp h; exact exec_call_of_full hcond
  | drw x y n => obtain ⟨hcond, ⟨⟩⟩ := Option.ite_none_right_eq_some.mp h; exact exec_drw_out_of_range hcond.1 hcond.2
  | skp x => obtain ⟨hcond, ⟨⟩⟩ := Option.ite_none_right_eq_some.mp h; exact exec_skp_of_no_key hcond
  | sknp x => obtain ⟨hcond, ⟨⟩⟩ := Option.ite_none_right_eq_some.mp h; exact exec_sknp_of_no_key hcond
  | ldB x => obtain ⟨hcond, ⟨⟩⟩ := Option.ite_none_right_eq_some.mp h; exact exec_ldB_out_of_range hcond
  | storeRegs x => obtain ⟨hcond, ⟨⟩⟩ := Option.ite_none_right_eq_some.mp h; exact exec_storeRegs_out_of_range hcond
  | loadRegs x => obtain ⟨hcond, ⟨⟩⟩ := Option.ite_none_right_eq_some.mp h; exact exec_loadRegs_out_of_range hcond
  | _ => cases h

/-- The causes that no instruction raises of its own: they end a step before the execute phase (R82, R83). -/
theorem ownFault_cause {i : Instr} {s : State} {c : FaultCause} (h : ownFault i s = some c) :
    c ≠ .none ∧ c ≠ .fetchRange := by
  cases i with
  | ret | call _ | drw _ _ _ | skp _ | sknp _ | ldB _ | storeRegs _ | loadRegs _ =>
    obtain ⟨-, ⟨⟩⟩ := Option.ite_none_right_eq_some.mp h
    decide
  | _ => cases h

/-! ### What an effect leaves unchanged -/

section Unwritten

variable (i : Instr) (s : State)

@[simp] theorem effect_faulted : (effect i s).faulted = s.faulted := by cases i <;> rfl
@[simp] theorem effect_faultCause : (effect i s).faultCause = s.faultCause := by cases i <;> rfl
@[simp] theorem effect_faultPc : (effect i s).faultPc = s.faultPc := by cases i <;> rfl
@[simp] theorem effect_faultOpcode : (effect i s).faultOpcode = s.faultOpcode := by cases i <;> rfl
@[simp] theorem effect_keyEdge : (effect i s).keyEdge = s.keyEdge := by cases i <;> rfl
@[simp] theorem effect_keys : (effect i s).keys = s.keys := by cases i <;> rfl
@[simp] theorem effect_runningIn : (effect i s).runningIn = s.runningIn := by cases i <;> rfl
@[simp] theorem effect_result : (effect i s).result = s.result := by cases i <;> rfl

end Unwritten

/-! ### The report of a fault -/

theorem takeFault_faultReported (c : FaultCause) (w : Word) (s : State) : FaultReported c w s (takeFault c w s) :=
  ⟨rfl, rfl, rfl, rfl, rfl, fun _ hp =>
    takeFault_kept c w s (by rintro rfl; simp at hp) (by rintro rfl; simp at hp)⟩

/-- An instruction whose row of the table gives a fault reports it with its own word. -/
theorem exec_reports_of_fault {i : Instr} {s : State} {c : FaultCause} (h : ownFault i s = some c) :
    ∃ t, exec i s = .next t ∧ FaultReported c (encode i) s t :=
  ⟨_, exec_of_fault h, takeFault_faultReported c (encode i) s⟩

/-- The two answers of `exec`, with nothing assumed. -/
theorem exec_eq_next {i : Instr} {s t : State} (h : exec i s = .next t) :
    (∃ c, ownFault i s = some c ∧ t = takeFault c (encode i) s) ∨ (ownFault i s = none ∧ t = effect i s) := by
  cases hf : ownFault i s with
  | some c => exact .inl ⟨c, rfl, (Host.Outcome.next.inj ((exec_of_fault hf).symm.trans h)).symm⟩
  | none => exact .inr ⟨rfl, (Host.Outcome.next.inj ((exec_of_no_fault hf).symm.trans h)).symm⟩

/-! ### The obligation -/

/-- Settles O15: an instruction answers the taken fault of its row, or its effect, which writes no report. -/
theorem instructionsFaultExactlyByTable : Obligations.InstructionsFaultExactlyByTable := by
  refine fun i s => ⟨fun c hc => exec_reports_of_fault hc, fun hnone => ?_⟩
  exact ⟨effect i s, exec_of_no_fault hnone, by simp [Kept], by simp [Kept]⟩

end Sys2Proof.Machine
end

section
/-! PROOFS. What a step can do (spec/40_step_cycle.md R80 to R90), said once: one case per mode and, from RUNNING, whether
the step faults. -/

namespace Sys2Proof.Machine

/-! ### How a running step ends without an instruction -/

theorem State.instrAt_of_not_fetchable {s : State} (h : s.pc.toNat > 0xFFE) : s.instrAt = none := by
  rw [State.instrAt, if_neg]
  simp only [State.fetchable, decide_eq_true_eq]
  omega

theorem State.instrAt_of_fetchable {s : State} (h : s.pc.toNat ≤ 0xFFE) :
    s.instrAt = decodeWord (s.wordAt s.pc.toNat) :=
  if_pos (decide_eq_true h)

/-- The range check comes before the fetch (R82). -/
theorem fetchDecode_of_not_fetchable {s : State} (h : s.pc.toNat > 0xFFE) :
    fetchDecode s = .error (.next (takeFault .fetchRange 0 s)) := by
  rw [fetchDecode, if_neg]
  simp only [State.fetchable, decide_eq_true_eq]
  omega

theorem fetchDecode_of_illegal {s : State} (h : s.pc.toNat ≤ 0xFFE) (hw : decodeWord (s.wordAt s.pc.toNat) = none) :
    fetchDecode s = .error (.next (takeFault .illegalOpcode (s.wordAt s.pc.toNat) s)) := by
  have hf : s.fetchable = true := decide_eq_true h
  simp only [State.wordAt] at hw ⊢
  simp only [fetchDecode, hf, if_true, fetchWord_eq hf, hw]

/-! ### The fault of a running step -/

/-- The fault that a running step takes, in the order of its checks (R82 to R84, `step_of_stepFault`). -/
def stepFault (s : State) : Option FaultCause :=
  match s.instrAt with
  | some i => ownFault i s
  | none => if s.pc.toNat > 0xFFE then some .fetchRange else some .illegalOpcode

/-- The word that a running step reports with its fault: the one it fetched, if it fetched one (R161). -/
def reportedWord (c : FaultCause) (s : State) : Word := if c = .fetchRange then 0x0000 else s.wordAt s.pc.toNat

theorem stepFault_of_instrAt {s : State} {i : Instr} (h : s.instrAt = some i) : stepFault s = ownFault i s := by
  rw [stepFault, h]

theorem stepFault_ne_none {s : State} {c : FaultCause} (h : stepFault s = some c) : c ≠ .none := by
  unfold stepFault at h
  split at h
  · exact (ownFault_cause h).1
  · split at h <;> cases h <;> decide

/-- A running step completes exactly where it fetches an instruction that raises no fault. -/
theorem stepFault_eq_none_iff {s : State} : stepFault s = none ↔ ∃ i, s.instrAt = some i ∧ ownFault i s = none := by
  unfold stepFault
  split
  · next i hi => simp [hi]
  · next hi => split <;> simp [hi]

theorem step_of_stepFault {s : State} {c : FaultCause} (hrun : s.mode = .running) (h : stepFault s = some c) :
    step s = .next (takeFault c (reportedWord c s) s) := by
  cases hi : s.instrAt with
  | some i =>
    rw [stepFault_of_instrAt hi] at h
    have hword : encode i = s.wordAt s.pc.toNat := encode_of_decodeWord (State.instrAt_eq_some.mp hi).2
    rw [step_of_instrAt hrun hi, exec_of_fault h, reportedWord, if_neg (ownFault_cause h).2, ← hword]
    rfl
  | none =>
    simp only [stepFault, hi] at h
    by_cases hpc : s.pc.toNat > 0xFFE
    · rw [if_pos hpc] at h
      cases h
      simp only [step, hrun, fetchDecode_of_not_fetchable hpc]
      rfl
    · rw [if_neg hpc] at h
      cases h
      have hpc : s.pc.toNat ≤ 0xFFE := by omega
      simp only [step, hrun, fetchDecode_of_illegal hpc (State.instrAt_of_fetchable hpc ▸ hi)]
      rfl

/-! ### The cases of a step -/

theorem step_of_faulted {s : State} (h : s.mode = .faulted) : step s = .next (faultedStep s) := by
  simp only [step, h]

theorem step_of_waiting {s : State} (h : s.mode = .waitingForKey) : step s = .next (waitingStep s) := by
  simp only [step, h]

theorem step_of_completes {s : State} {i : Instr} (hrun : s.mode = .running) (hi : s.instrAt = some i)
    (hok : ownFault i s = none) : step s = .next (effect i s).finish :=
  step_eq_finish_of_exec hrun hi (exec_of_no_fault hok) (by simp [Kept])

/-- What a step can do. -/
inductive StepTo (s : State) : State → Prop
  /-- FAULTED is kept (R89). -/
  | stays (hmode : s.mode = .faulted) : StepTo s (faultedStep s)
  /-- The waiting step (R88). -/
  | waits (hmode : s.mode = .waitingForKey) : StepTo s (waitingStep s)
  /-- A running step takes a fault (R161). -/
  | faults (hmode : s.mode = .running) (c : FaultCause) (hc : stepFault s = some c) :
    StepTo s (takeFault c (reportedWord c s) s)
  /-- A running step executes the instruction fetched, and ends (R86, R87). -/
  | completes (hmode : s.mode = .running) (i : Instr) (hi : s.instrAt = some i) (hok : ownFault i s = none) :
    StepTo s (effect i s).finish

theorem StepTo.step_eq {s t : State} (h : StepTo s t) : step s = .next t := by
  cases h with
  | stays hmode => exact step_of_faulted hmode
  | waits hmode => exact step_of_waiting hmode
  | faults hmode c hc => exact step_of_stepFault hmode hc
  | completes hmode i hi hok => exact step_of_completes hmode hi hok

/-- One of the cases applies in every state. -/
theorem exists_stepTo (s : State) : ∃ t, StepTo s t := by
  cases hmode : s.mode with
  | faulted => exact ⟨_, .stays hmode⟩
  | waitingForKey => exact ⟨_, .waits hmode⟩
  | running =>
    cases hc : stepFault s with
    | some c => exact ⟨_, .faults hmode c hc⟩
    | none =>
      obtain ⟨i, hi, hok⟩ := stepFault_eq_none_iff.mp hc
      exact ⟨_, .completes hmode i hi hok⟩

/-- The inversion of a step. -/
theorem StepTo.of_step {s t : State} (h : step s = .next t) : StepTo s t := by
  obtain ⟨u, hu⟩ := exists_stepTo s
  obtain rfl : u = t := Host.Outcome.next.inj (hu.step_eq.symm.trans h)
  exact hu

end Sys2Proof.Machine
end

section
/-! PROOFS. The end of a step, the waiting step and the faulted step (spec/40_step_cycle.md R86 to R89). -/

namespace Sys2Proof.Machine

/-! ### The end of a step -/

theorem State.finish_onlyChanges (s : State) : OnlyChanges [.delayTimer, .soundTimer, .result] s s.finish := by
  intro p hp
  cases p with
  | delayTimer | soundTimer | result => simp at hp
  | _ => simp [Kept]

theorem faultedStep_onlyChanges (s : State) : OnlyChanges [.result] s (faultedStep s) := by
  intro p hp
  cases p with
  | result => simp at hp
  | _ => simp [Kept, faultedStep, State.reg]

/-! ### The waiting step -/

/-- The resume writes the register waited for, and no other. -/
theorem State.reg_resume (s : State) (k : Nat) (z : RegIdx) :
    (s.resume k).reg z = if z = s.keyTarget then BitVec.ofNat 8 k else s.reg z :=
  s.reg_setReg s.keyTarget z _

theorem lowestKey_of_least {keys : BitVec 16} {k : Nat} (hk : k < 16) (hdown : keys.getLsbD k = true)
    (hleast : ∀ j < k, keys.getLsbD j = false) : lowestKey keys = some k := by
  rw [lowestKey, List.find?_range_eq_some]
  exact ⟨hdown, List.mem_range.mpr hk, by simpa using hleast⟩

theorem lowestKey_isSome {keys : BitVec 16} (h : keys ≠ 0) : ∃ k, lowestKey keys = some k :=
  Option.ne_none_iff_exists'.mp fun hnone => h (lowestKey_eq_none.mp hnone)

theorem waitingStep_of_key {s : State} {k : Nat} (hedge : s.keyEdge = true) (hk : lowestKey s.keys = some k) :
    waitingStep s = (({ s with keyEdge := false } : State).resume k).finish := by
  rw [waitingStep, if_pos hedge, State.consumeEdge, hk]

theorem waitingStep_of_no_key {s : State} (h : s.keyEdge = false ∨ s.keys = 0) :
    waitingStep s = ({ s with keyEdge := false } : State).finish := by
  cases hedge : s.keyEdge with
  | false => rw [waitingStep, if_neg (by simp [hedge]), ← hedge]
  | true =>
    have hnone := lowestKey_eq_none.mpr (h.resolve_left (by simp [hedge]))
    rw [waitingStep, if_pos hedge, State.consumeEdge, hnone]

/-- The two ways a waiting step ends (R88). -/
theorem waitingStep_cases (s : State) :
    (∃ k, s.keyEdge = true ∧ s.keys ≠ 0 ∧
      waitingStep s = (({ s with keyEdge := false } : State).resume k).finish) ∨
    ((s.keyEdge = false ∨ s.keys = 0) ∧ waitingStep s = ({ s with keyEdge := false } : State).finish) := by
  cases hedge : s.keyEdge with
  | false => exact .inr ⟨.inl rfl, waitingStep_of_no_key (.inl hedge)⟩
  | true =>
    by_cases hkeys : s.keys = 0
    · exact .inr ⟨.inr hkeys, waitingStep_of_no_key (.inr hkeys)⟩
    · obtain ⟨k, hk⟩ := lowestKey_isSome hkeys
      exact .inl ⟨k, rfl, hkeys, waitingStep_of_key hedge hk⟩

/-- What holds of a state that resumes and of one that keeps waiting holds after every waiting step. -/
theorem waitingStep_induction (s : State) (P : State → Prop)
    (resumes : ∀ k, P (({ s with keyEdge := false } : State).resume k).finish)
    (keepsWaiting : P ({ s with keyEdge := false } : State).finish) : P (waitingStep s) := by
  obtain ⟨k, -, -, h⟩ | ⟨-, h⟩ := waitingStep_cases s
  · exact h ▸ resumes k
  · exact h ▸ keepsWaiting

/-- The resume writes the register waited for, `pc` and the wait (R88). -/
theorem waitingStep_resume_onlyChanges (s : State) (k : Nat) :
    OnlyChanges [.regs, .pc, .keyWait, .keyEdge, .delayTimer, .soundTimer, .result] s
      (({ s with keyEdge := false } : State).resume k).finish := by
  intro p hp
  cases p with
  | regs | pc | keyWait | keyEdge | delayTimer | soundTimer | result => simp at hp
  | _ => simp [Kept, State.resume]

theorem waitingStep_keepsWaiting_onlyChanges (s : State) :
    OnlyChanges [.keyEdge, .delayTimer, .soundTimer, .result] s ({ s with keyEdge := false } : State).finish := by
  intro p hp
  cases p with
  | keyEdge | delayTimer | soundTimer | result => simp at hp
  | _ => simp [Kept, State.reg]

section WaitingFields

variable (s : State)

@[simp] theorem waitingStep_sp : (waitingStep s).sp = s.sp := waitingStep_induction s (·.sp = s.sp) (fun _ => rfl) rfl

@[simp] theorem waitingStep_stack : (waitingStep s).stack = s.stack :=
  waitingStep_induction s (·.stack = s.stack) (fun _ => rfl) rfl

@[simp] theorem waitingStep_memory : (waitingStep s).memory = s.memory :=
  waitingStep_induction s (·.memory = s.memory) (fun _ => rfl) rfl

@[simp] theorem waitingStep_fb : (waitingStep s).fb = s.fb := waitingStep_induction s (·.fb = s.fb) (fun _ => rfl) rfl

@[simp] theorem waitingStep_dirty : (waitingStep s).dirty = s.dirty :=
  waitingStep_induction s (·.dirty = s.dirty) (fun _ => rfl) rfl

@[simp] theorem waitingStep_faulted : (waitingStep s).faulted = s.faulted :=
  waitingStep_induction s (·.faulted = s.faulted) (fun _ => rfl) rfl

@[simp] theorem waitingStep_keyTarget : (waitingStep s).keyTarget = s.keyTarget :=
  waitingStep_induction s (·.keyTarget = s.keyTarget) (fun _ => rfl) rfl

@[simp] theorem waitingStep_keyEdge : (waitingStep s).keyEdge = false :=
  waitingStep_induction s (·.keyEdge = false) (fun _ => rfl) rfl

@[simp] theorem waitingStep_delayTimer : (waitingStep s).delayTimer = tickTimer s.delayTimer :=
  waitingStep_induction s (·.delayTimer = tickTimer s.delayTimer) (fun _ => rfl) rfl

@[simp] theorem waitingStep_soundTimer : (waitingStep s).soundTimer = tickTimer s.soundTimer :=
  waitingStep_induction s (·.soundTimer = tickTimer s.soundTimer) (fun _ => rfl) rfl

@[simp] theorem waitingStep_result : (waitingStep s).result = .ok s.runningIn :=
  waitingStep_induction s (·.result = .ok s.runningIn) (fun _ => rfl) rfl

end WaitingFields

/-- The wait ends exactly with the edge flag set and a key down (R88, decision D12). -/
theorem waitingStep_mode {s : State} (hmode : s.mode = .waitingForKey) :
    (waitingStep s).mode = if s.keyEdge = true ∧ s.keys ≠ 0 then .running else .waitingForKey := by
  obtain ⟨k, hedge, hkeys, h⟩ | ⟨hnone, h⟩ := waitingStep_cases s
  · rw [h, if_pos ⟨hedge, hkeys⟩]
    exact State.mode_eq_running.mpr ⟨(State.mode_eq_waiting.mp hmode).1, rfl⟩
  · rw [h, if_neg fun ⟨hedge, hkeys⟩ => hnone.elim (by simp [hedge]) hkeys]
    exact hmode

/-! ### The faulted step -/

section FaultedFields

variable (s : State)

@[simp] theorem faultedStep_delayTimer : (faultedStep s).delayTimer = s.delayTimer := rfl
@[simp] theorem faultedStep_soundTimer : (faultedStep s).soundTimer = s.soundTimer := rfl
@[simp] theorem faultedStep_sp : (faultedStep s).sp = s.sp := rfl
@[simp] theorem faultedStep_stack : (faultedStep s).stack = s.stack := rfl
@[simp] theorem faultedStep_keyTarget : (faultedStep s).keyTarget = s.keyTarget := rfl
@[simp] theorem faultedStep_memory : (faultedStep s).memory = s.memory := rfl
@[simp] theorem faultedStep_fb : (faultedStep s).fb = s.fb := rfl
@[simp] theorem faultedStep_dirty : (faultedStep s).dirty = s.dirty := rfl
@[simp] theorem faultedStep_keyEdge : (faultedStep s).keyEdge = s.keyEdge := rfl
@[simp] theorem faultedStep_faulted : (faultedStep s).faulted = s.faulted := rfl
@[simp] theorem faultedStep_faultCause : (faultedStep s).faultCause = s.faultCause := rfl
@[simp] theorem faultedStep_result : (faultedStep s).result = .fault s.faultCause := rfl

end FaultedFields

/-! ### The obligations -/

/-- Settles O6: the instruction answers its fault, which is the step's answer, or its effect, which the step finishes. -/
theorem runningStepExecutesFetchedInstruction : Obligations.RunningStepExecutesFetchedInstruction := by
  intro s i hrun hi
  cases hf : ownFault i s with
  | some c =>
    refine ⟨_, _, exec_of_fault hf, ?_, fun _ => rfl, fun hok => nomatch hok⟩
    rw [step_of_instrAt hrun hi, exec_of_fault hf]
    rfl
  | none =>
    have hok : (effect i s).faulted = false := (effect_faulted i s).trans (State.mode_eq_running.mp hrun).1
    refine ⟨_, _, exec_of_no_fault hf, step_of_completes hrun hi hf, fun h => absurd h (Bool.eq_false_iff.mp hok),
      fun _ => ?_⟩
    exact ⟨rfl, tickTimer_toNat _, tickTimer_toNat _, by simp, State.finish_onlyChanges _⟩

/-- Settles O7: outside the fetchable addresses no instruction is read, and the fault taken is FETCH_RANGE. -/
theorem fetchOutsideMemoryFaults : Obligations.FetchOutsideMemoryFaults := by
  intro s hrun hpc
  have hfault : stepFault s = some .fetchRange := by simp [stepFault, State.instrAt_of_not_fetchable hpc, hpc]
  exact ⟨_, step_of_stepFault hrun hfault, takeFault_faultReported _ _ s⟩

/-- Settles O8: inside them an illegal word is no instruction either, and the fault taken is ILLEGAL_OPCODE. -/
theorem illegalWordFaults : Obligations.IllegalWordFaults := by
  intro s hrun hpc hw
  have hfault : stepFault s = some .illegalOpcode := by
    simp [stepFault, State.instrAt_of_fetchable hpc, hw, Nat.not_lt.mpr hpc]
  exact ⟨_, step_of_stepFault hrun hfault, takeFault_faultReported _ _ s⟩

/-- Settles O9: `k` is the key the core finds, and the resume writes its index. -/
theorem waitingStepResumesWithLowestKey : Obligations.WaitingStepResumesWithLowestKey := by
  intro s k hwait hedge hk hdown hleast
  have hstep := step_of_waiting hwait
  rw [waitingStep_of_key hedge (lowestKey_of_least hk hdown hleast)] at hstep
  refine ⟨_, hstep, ?_, fun z hz => ?_, rfl, State.mode_eq_running.mpr ⟨(State.mode_eq_waiting.mp hwait).1, rfl⟩,
    rfl, rfl, tickTimer_toNat _, tickTimer_toNat _, rfl, waitingStep_resume_onlyChanges s k⟩
  · rw [State.reg_finish, State.reg_resume, if_pos rfl, BitVec.toNat_ofNat]
    omega
  · rw [State.reg_finish, State.reg_resume, if_neg hz]
    rfl

/-- Settles O10: the state is finished with the flag clear, and nothing of the wait changes. -/
theorem waitingStepWithoutKeyKeepsWaiting : Obligations.WaitingStepWithoutKeyKeepsWaiting := by
  intro s hwait h
  have hstep := step_of_waiting hwait
  rw [waitingStep_of_no_key h] at hstep
  exact ⟨_, hstep, hwait, rfl, tickTimer_toNat _, tickTimer_toNat _, rfl, waitingStep_keepsWaiting_onlyChanges s⟩

/-- Settles O11: the step of FAULTED writes the result alone. -/
theorem faultedStepChangesNothing : Obligations.FaultedStepChangesNothing := by
  intro s hmode
  exact ⟨_, step_of_faulted hmode, hmode, rfl, faultedStep_onlyChanges s⟩

/-- Settles O12: each case of a step has its result. -/
theorem everyStepAnswersNextState : Obligations.EveryStepAnswersNextState := by
  intro s
  obtain ⟨t, h⟩ := exists_stepTo s
  refine ⟨t, h.step_eq, ?_⟩
  cases h with
  | stays hmode => simp [State.mode_eq_faulted.mp hmode]
  | waits hmode => simp [(State.mode_eq_waiting.mp hmode).1]
  | faults hmode c hc => simp
  | completes hmode i hi hok => simp [(State.mode_eq_running.mp hmode).1]

/-- Settles O13: the tick stands in the waiting step and at the end of a completed one, and in no other case. -/
theorem timersTickOncePerUnfaultedStep : Obligations.TimersTickOncePerUnfaultedStep := by
  intro s t h
  cases StepTo.of_step h with
  | stays hmode => simp [hmode]
  | waits hmode => simp [hmode, tickTimer_toNat]
  | faults hmode c hc => simp [hmode]
  | completes hmode i hi hok =>
    have hfaulted := (State.mode_eq_running.mp hmode).1
    refine ⟨by simp [hmode], by simp [hmode], by simp [hfaulted], fun _ _ => ?_⟩
    exact ⟨i, effect i s, hi, exec_of_no_fault hok, tickTimer_toNat _, tickTimer_toNat _⟩

/-- Settles O14: the only case of a running step that ends faulted is the taken fault. -/
theorem faultsArePrecise : Obligations.FaultsArePrecise := by
  intro s t hrun h hfaulted
  cases StepTo.of_step h with
  | stays hmode => simp [hmode] at hrun
  | waits hmode => simp [hmode] at hrun
  | faults hmode c hc => exact ⟨stepFault_ne_none hc, takeFault_faultReported c (reportedWord c s) s⟩
  | completes hmode i hi hok => simp [(State.mode_eq_running.mp hmode).1] at hfaulted

end Sys2Proof.Machine
end

section
/-! PROOFS. Who writes what (spec/10_state.md R28): each part of the state with the instructions whose effect changes it. -/

namespace Sys2Proof.Machine

/-! ### Registers -/

theorem State.eq_of_setReg_changed {s : State} {x z : RegIdx} {v : Byte} (h : (s.setReg x v).reg z ≠ s.reg z) : z = x :=
  Classical.byContradiction fun hz => h (s.reg_setReg_of_ne hz v)

/-- A flag and a result written change `VF` and the destination. -/
theorem State.eq_of_setFlag_setReg_changed {s : State} {x z : RegIdx} {f v : Byte}
    (h : ((s.setFlag f).setReg x v).reg z ≠ s.reg z) : z = x ∨ z = 0xF := by
  by_cases hz : z = x
  · exact .inl hz
  · rw [State.reg_setReg_of_ne _ hz] at h
    exact .inr (State.eq_of_setReg_changed h)

theorem effect_reg_changed {i : Instr} {s : State} {z : RegIdx} (h : (effect i s).reg z ≠ s.reg z) :
    writesReg i z = true ∨ (z = 0xF ∧ writesFlag i = true) := by
  cases i with
  | ldImm _ _ | addImm _ _ | ldReg _ _ | orReg _ _ | andReg _ _ | xorReg _ _ | rnd _ _ | ldVxDt _ =>
    exact .inl (beq_iff_eq.mpr (State.eq_of_setReg_changed h))
  | addReg _ _ | sub _ _ | shr _ _ | subn _ _ | shl _ _ =>
    exact (State.eq_of_setFlag_setReg_changed h).imp beq_iff_eq.mpr fun hz => ⟨hz, rfl⟩
  | drw _ _ _ => exact .inr ⟨State.eq_of_setReg_changed h, rfl⟩
  | loadRegs x =>
    refine .inl (decide_eq_true (Classical.byContradiction fun hz => h ?_))
    have hz : x.toNat < z.toNat := by omega
    simp [effect, State.reg_setRegs, hz]
  | _ => exact absurd rfl h

/-! ### Memory -/

theorem Memory.mem_block_of_writeList_changed {m : Memory} {bs : List Byte} {a b : Nat}
    (h : (m.writeList a bs).read b ≠ m.read b) : a ≤ b ∧ b < a + bs.length := by
  by_contra hout
  exact h (m.read_writeList_of_not_mem bs (by omega))

theorem effect_memory_changed {i : Instr} {s : State} {a : Nat}
    (h : (effect i s).memory.read a ≠ s.memory.read a) :
    ∃ x : RegIdx, (i = .ldB x ∧ dataBase s ≤ a ∧ a ≤ dataBase s + 2) ∨
      (i = .storeRegs x ∧ dataBase s ≤ a ∧ a ≤ dataBase s + x.toNat) := by
  cases i with
  | ldB x =>
    have hblock := Memory.mem_block_of_writeList_changed h
    rw [decimalDigits_length] at hblock
    exact ⟨x, .inl ⟨rfl, hblock.1, Nat.le_of_lt_succ hblock.2⟩⟩
  | storeRegs x =>
    have hblock := Memory.mem_block_of_writeList_changed h
    rw [regRange_length] at hblock
    exact ⟨x, .inr ⟨rfl, hblock.1, Nat.le_of_lt_succ hblock.2⟩⟩
  | _ => exact absurd rfl h

/-! ### The frame -/

theorem effect_dirty_of_dirty {i : Instr} {s : State} (h : s.dirty = true) : (effect i s).dirty = true := by
  cases i with
  | cls | drw _ _ _ => rfl
  | _ => exact h

theorem effect_frame_changed {i : Instr} {s : State} (h : (effect i s).fb ≠ s.fb ∨ (effect i s).dirty ≠ s.dirty) :
    (effect i s).dirty = true ∧ (i = .cls ∨ ∃ x y n, i = .drw x y n) := by
  cases i with
  | cls => exact ⟨rfl, .inl rfl⟩
  | drw x y n => exact ⟨rfl, .inr ⟨x, y, n, rfl⟩⟩
  | _ => exact h.elim (absurd rfl) (absurd rfl)

/-! ### The stack -/

theorem effect_sp_changed {i : Instr} {s : State} (hok : ownFault i s = none) (h : (effect i s).sp ≠ s.sp) :
    (∃ nnn, i = .call nnn ∧ (effect i s).sp.val = s.sp.val + 1) ∨ (i = .ret ∧ (effect i s).sp.val + 1 = s.sp.val) := by
  cases i with
  | call nnn => exact .inl ⟨nnn, rfl, Nat.min_eq_left (ownFault_call_eq_none.mp hok)⟩
  | ret => exact .inr ⟨rfl, Nat.succ_pred (ownFault_ret_eq_none.mp hok)⟩
  | _ => exact absurd rfl h

theorem effect_stack_changed {i : Instr} {s : State} {k : Nat} (hok : ownFault i s = none)
    (h : (effect i s).stack[k]? ≠ s.stack[k]?) :
    (∃ nnn, i = .call nnn) ∧ k = s.sp.val ∧ (effect i s).stack[k]? = some s.pc := by
  cases i with
  | call nnn =>
    have hfree := ownFault_call_eq_none.mp hok
    simp only [effect, Vector.getElem?_setIfInBounds] at h ⊢
    by_cases hk : s.sp.val = k
    · subst hk
      simp [hfree]
    · simp [hk] at h
  | _ => exact absurd rfl h

/-! ### The wait -/

theorem effect_halted_iff {i : Instr} {s : State} (h : s.halted = false) :
    (effect i s).halted = true ↔ ∃ x, i = .ldVxK x := by
  cases i with
  | ldVxK x => exact ⟨fun _ => ⟨x, rfl⟩, fun _ => rfl⟩
  | _ => exact ⟨fun ht => absurd ht (Bool.eq_false_iff.mp h), nofun⟩

theorem effect_keyTarget {i : Instr} {s : State} (h : ∀ x, i ≠ .ldVxK x) : (effect i s).keyTarget = s.keyTarget := by
  cases i with
  | ldVxK x => exact absurd rfl (h x)
  | _ => rfl

/-! ### The obligations -/

/-- Settles O43: a fault keeps every register, and an effect changes only those of the access table. -/
theorem registersChangeOnlyByNameOrFlag : Obligations.RegistersChangeOnlyByNameOrFlag := by
  intro i s t z hexec h
  obtain ⟨c, -, rfl⟩ | ⟨-, rfl⟩ := exec_eq_next hexec
  · exact absurd rfl h
  · exact effect_reg_changed h

/-- Settles O44: of the cases of a step only an effect writes memory, and that inside the block stored. -/
theorem memoryChangesOnlyByStores : Obligations.MemoryChangesOnlyByStores := by
  intro s t a hstep h
  cases StepTo.of_step hstep with
  | stays hmode => exact absurd rfl h
  | waits hmode => exact absurd (by rw [waitingStep_memory]) h
  | faults hmode c hc => exact absurd rfl h
  | completes hmode i hi hok =>
    obtain ⟨x, hx⟩ := effect_memory_changed h
    exact ⟨hmode, x, hx.imp (fun ⟨he, hr⟩ => ⟨he ▸ hi, hr⟩) (fun ⟨he, hr⟩ => ⟨he ▸ hi, hr⟩)⟩

/-- Settles O45: of the cases of a step only an effect writes the frame or its mark. -/
theorem frameChangesOnlyByGraphics : Obligations.FrameChangesOnlyByGraphics := by
  intro s t hstep
  cases StepTo.of_step hstep with
  | stays hmode => simp
  | waits hmode => simp
  | faults hmode c hc => simp
  | completes hmode i hi hok =>
    refine ⟨fun h => effect_dirty_of_dirty h, fun h => ?_⟩
    obtain ⟨hdirty, hgraphics⟩ := effect_frame_changed h
    exact ⟨hmode, hdirty, hgraphics.imp (fun he => hi.trans (congrArg some he)) fun ⟨x, y, n, he⟩ => ⟨x, y, n, he ▸ hi⟩⟩

/-- Settles O46: of the cases of a step only an effect writes the stack. -/
theorem stackMovesOnlyByCallAndReturn : Obligations.StackMovesOnlyByCallAndReturn := by
  intro s t hstep
  cases StepTo.of_step hstep with
  | stays hmode => simp
  | waits hmode => simp
  | faults hmode c hc => simp
  | completes hmode i hi hok =>
    refine ⟨fun h => ⟨hmode, ?_⟩, fun k h => ⟨hmode, ?_⟩⟩
    · exact (effect_sp_changed hok h).imp (fun ⟨nnn, he, hsp⟩ => ⟨nnn, he ▸ hi, hsp⟩) fun ⟨he, hsp⟩ => ⟨he ▸ hi, hsp⟩
    · obtain ⟨⟨nnn, he⟩, hk, hentry⟩ := effect_stack_changed hok h
      exact ⟨⟨nnn, he ▸ hi⟩, hk, hentry⟩

/-- Settles O47: the waiting step clears the flag, and no other case of a step writes it. -/
theorem edgeFlagIsConsumedOnlyWhileWaiting : Obligations.EdgeFlagIsConsumedOnlyWhileWaiting := by
  intro s t hstep
  cases StepTo.of_step hstep with
  | stays hmode => simp [hmode]
  | waits hmode => simp [hmode]
  | faults hmode c hc => simp [hmode]
  | completes hmode i hi hok => simp [hmode]

/-- Settles O48: of the cases of a step only the effect of `Fx0A` writes the target. -/
theorem keyTargetIsWrittenOnlyByKeyWait : Obligations.KeyTargetIsWrittenOnlyByKeyWait := by
  intro s t hstep
  cases StepTo.of_step hstep with
  | stays hmode => simp [hmode]
  | waits hmode => simp [hmode]
  | faults hmode c hc =>
    refine ⟨fun x _ hx => ?_, fun _ => rfl⟩
    rw [stepFault_of_instrAt hx] at hc
    cases hc
  | completes hmode i hi hok =>
    refine ⟨fun x _ hx => ?_, fun h => effect_keyTarget fun x he => h ⟨x, hmode, he ▸ hi⟩⟩
    obtain rfl : i = .ldVxK x := Option.some.inj (hi.symm.trans hx)
    rfl

/-- Settles O49: the mode after each case of a step. -/
theorem modeTransitionsAreExactly : Obligations.ModeTransitionsAreExactly := by
  intro s t hstep
  cases StepTo.of_step hstep with
  | stays hmode => exact ⟨fun _ => hmode, by simp [hmode], by simp [hmode]⟩
  | waits hmode => simp [hmode, waitingStep_mode hmode]
  | faults hmode c hc =>
    have hafter : (takeFault c (reportedWord c s) s).mode = .faulted := State.mode_eq_faulted.mpr rfl
    refine ⟨fun _ => hafter, by simp [hmode], fun _ => ⟨?_, iff_of_true hafter fun i hi => ?_⟩⟩
    · refine iff_of_false (by simp [hafter]) fun ⟨x, hx⟩ => ?_
      rw [stepFault_of_instrAt hx] at hc
      cases hc
    · rw [stepFault_of_instrAt hi] at hc
      simp [hc]
  | completes hmode i hi hok =>
    obtain ⟨hfaulted, hhalted⟩ := State.mode_eq_running.mp hmode
    refine ⟨by simp [hmode], by simp [hmode], fun _ => ⟨?_, iff_of_false ?_ fun h => ?_⟩⟩
    · simp [State.mode_eq_waiting, hfaulted, effect_halted_iff hhalted, hi]
    · simp [State.mode_eq_faulted, hfaulted]
    · exact absurd (h i hi) (by simp [hok])

end Sys2Proof.Machine
end

section
/-! PROOFS. The invariant between steps (spec/40_step_cycle.md R92): one lemma per case of a step, one per host move, and
the induction over a run. -/

namespace Sys2Proof.Machine

/-! ### What the invariant reads -/

theorem State.pc_le_of_instrAt {s : State} {i : Instr} (h : s.instrAt = some i) : s.pc.toNat ≤ 0xFFE :=
  (State.instrAt_eq_some.mp h).1

/-- The invariant of a running state: without a wait and a report it speaks of memory, `pc` and the stack. -/
theorem State.Inv.of_running {s : State} (hmode : s.mode = .running) (hmem : s.memory.wf = true)
    (hpc : s.pc.toNat ≤ 0x1002) (hstack : ∀ (k : Nat) (h : k < 16), (s.stack[k]'h).toNat ≤ 0xFFE)
    (hreport : s.faultCause = .none ∧ s.faultPc = 0 ∧ s.faultOpcode = 0) : s.Inv := by
  obtain ⟨hfaulted, hhalted⟩ := State.mode_eq_running.mp hmode
  exact ⟨hmem, by simp [hhalted], fun _ => hpc, hstack, by simp [hhalted], fun _ => hreport, by simp [hfaulted]⟩

/-! ### The bound on `pc` -/

theorem toNat_add_two_le {a : Word} (h : a.toNat ≤ 0xFFE) : (a + 2).toNat ≤ 0x1002 := by bv_omega

theorem State.skipIf_pc_le {s : State} (c : Bool) (h : s.pc.toNat ≤ 0xFFE) : (s.skipIf c).pc.toNat ≤ 0x1002 := by
  rw [State.skipIf_pc]
  split <;> bv_omega

theorem effect_pc_le {i : Instr} {s : State} (hpc : s.pc.toNat ≤ 0xFFE)
    (hstack : ∀ (k : Nat) (h : k < 16), (s.stack[k]'h).toNat ≤ 0xFFE) : (effect i s).pc.toNat ≤ 0x1002 := by
  cases i with
  | jp nnn | call nnn =>
    have hnnn := nnn.isLt
    have htarget := addrOperand_toNat nnn
    simp only [effect, State.setPc_pc]
    omega
  | ret => exact toNat_add_two_le (hstack _ (by omega))
  | seImm _ _ | sneImm _ _ | seReg _ _ | sneReg _ _ | skp _ | sknp _ => exact State.skipIf_pc_le _ hpc
  | ldVxK _ => exact Nat.le_trans hpc (by decide)
  | _ => exact toNat_add_two_le hpc

/-! ### The stack and memory -/

theorem effect_stack_le {i : Instr} {s : State} (hpc : s.pc.toNat ≤ 0xFFE)
    (hstack : ∀ (k : Nat) (h : k < 16), (s.stack[k]'h).toNat ≤ 0xFFE) :
    ∀ (k : Nat) (h : k < 16), ((effect i s).stack[k]'h).toNat ≤ 0xFFE := by
  intro k hk
  cases i with
  | call nnn =>
    simp only [effect, Vector.getElem_setIfInBounds]
    split
    · exact hpc
    · exact hstack k hk
  | _ => exact hstack k hk

theorem effect_memory_wf {i : Instr} {s : State} (hok : ownFault i s = none) (hmem : s.memory.wf = true) :
    (effect i s).memory.wf = true := by
  cases i with
  | ldB x =>
    have hrange := ownFault_ldB_eq_none.mp hok
    exact Memory.wf_writeList hmem _ (by rw [decimalDigits_length]; omega)
  | storeRegs x =>
    have hrange := ownFault_storeRegs_eq_none.mp hok
    exact Memory.wf_writeList hmem _ (by rw [regRange_length]; omega)
  | _ => exact hmem

/-! ### The cases of a step -/

/-- FAULTED keeps its report, and returns the fault it reports. -/
theorem State.Inv.faultedStep {s : State} (h : s.Inv) (hmode : s.mode = .faulted) : (faultedStep s).Inv := by
  have hfaulted := State.mode_eq_faulted.mp hmode
  obtain ⟨hcause, hpc, -, hword⟩ := h.report hfaulted
  exact ⟨h.memory_wf, h.one_mode, h.pc_le, h.stack_le, h.waits_at_wait, h.no_report, fun _ => ⟨hcause, hpc, rfl, hword⟩⟩

/-- A wait that goes on changes nothing the invariant reads; a resume steps over an existing `Fx0A`. -/
theorem State.Inv.waitingStep {s : State} (h : s.Inv) (hmode : s.mode = .waitingForKey) : (waitingStep s).Inv := by
  obtain ⟨hfaulted, hhalted⟩ := State.mode_eq_waiting.mp hmode
  obtain ⟨k, -, -, hstep⟩ | ⟨-, hstep⟩ := waitingStep_cases s
  · have hpc := State.pc_le_of_instrAt (h.waits_at_wait hhalted)
    rw [hstep]
    exact .of_running (State.mode_eq_running.mpr ⟨hfaulted, rfl⟩) h.memory_wf (toNat_add_two_le hpc) h.stack_le
      (h.no_report hfaulted)
  · rw [hstep]
    refine ⟨h.memory_wf, h.one_mode, h.pc_le, h.stack_le, h.waits_at_wait, h.no_report, fun hf => ?_⟩
    exact absurd hf (Bool.eq_false_iff.mp hfaulted)

/-- The report taken is the one the invariant asks for. -/
theorem State.Inv.takeFault {s : State} {c : FaultCause} (h : s.Inv) (hmode : s.mode = .running)
    (hc : stepFault s = some c) : (takeFault c (reportedWord c s) s).Inv := by
  obtain ⟨-, hhalted⟩ := State.mode_eq_running.mp hmode
  exact ⟨h.memory_wf, by simp [hhalted], nofun, h.stack_le, by simp [hhalted], nofun,
    fun _ => ⟨stepFault_ne_none hc, rfl, rfl, rfl⟩⟩

/-- An instruction that completes stands at an existing address, and waits only where it is the `Fx0A` waited at. -/
theorem State.Inv.effect {s : State} {i : Instr} (h : s.Inv) (hmode : s.mode = .running) (hi : s.instrAt = some i)
    (hok : ownFault i s = none) : (effect i s).finish.Inv := by
  obtain ⟨hfaulted, hhalted⟩ := State.mode_eq_running.mp hmode
  have hpc := State.pc_le_of_instrAt hi
  refine ⟨effect_memory_wf hok h.memory_wf, by simp [hfaulted], fun _ => effect_pc_le hpc h.stack_le,
    effect_stack_le hpc h.stack_le, fun hwait => ?_, fun _ => ?_, by simp [hfaulted]⟩
  · obtain ⟨x, rfl⟩ := (effect_halted_iff hhalted).mp hwait
    exact hi
  · simpa using h.no_report hfaulted

/-- Every step keeps the invariant. -/
theorem State.Inv.step {s t : State} (h : s.Inv) (hstep : step s = .next t) : t.Inv := by
  cases StepTo.of_step hstep with
  | stays hmode => exact h.faultedStep hmode
  | waits hmode => exact h.waitingStep hmode
  | faults hmode c hc => exact h.takeFault hmode hc
  | completes hmode i hi hok => exact h.effect hmode hi hok

/-! ### Reset and load -/

theorem State.resetWith_inv (font : Vector Byte 80) (s : State) : (s.resetWith font).Inv :=
  .of_running (s.resetWith_mode font) (s.resetWith_memory_wf font) (by simp)
    (fun k hk => by simp [State.resetWith, State.reset]) ⟨rfl, rfl, rfl⟩

/-- A load into a running core, where nothing waits at the bytes it writes. -/
theorem State.Inv.load {s : State} (h : s.Inv) (hmode : s.mode = .running) (program : List Byte) :
    (s.load program).Inv := by
  have hfaulted := (State.mode_eq_running.mp hmode).1
  exact .of_running hmode (State.load_memory_wf h.memory_wf program) (h.pc_le hfaulted) h.stack_le (h.no_report hfaulted)

/-! ### The host's moves -/

/-- Inputs, the edge flag and the dirty mark are read by no clause of the invariant. -/
theorem State.Inv.setInputs {s : State} (h : s.Inv) (keys : BitVec 16) (edge running dirty : Bool) :
    ({ s with keys := keys, keyEdge := edge, runningIn := running, dirty := dirty } : State).Inv :=
  ⟨h.memory_wf, h.one_mode, h.pc_le, h.stack_le, h.waits_at_wait, h.no_report, h.report⟩

theorem Bench.Inv.move {b c : Bench} {m : HostMove} (h : b.Inv) (hmove : b.move m = .next c) : c.Inv := by
  cases m with
  | reset =>
    cases hmove
    exact ⟨b.core.resetWith_inv b.font, fun _ => b.core.resetWith_mode b.font⟩
  | load program =>
    cases hphase : b.phase with
    | awaitingLoad =>
      simp only [Bench.move, hphase] at hmove
      cases hmove
      have hrun := h.boot (by simp [hphase])
      exact ⟨h.core.load hrun program, fun _ => hrun⟩
    | loaded | stepping => simp [Bench.move, hphase] at hmove
  | setKeys _ | setKeyEdge | setRunning _ | clearDirty =>
    cases hmove
    exact ⟨h.core.setInputs _ _ _ _, h.boot⟩

/-- The bench's step is the core's, which always answers (R80), refused before the load (R196). -/
theorem Bench.step_eq (b : Bench) :
    (b.phase = .awaitingLoad ∧ b.step = .refused .stepBeforeLoad) ∨
    ∃ t, Sys2Proof.Machine.step b.core = .next t ∧ b.step = .next { b with core := t, phase := .stepping } := by
  obtain ⟨t, ht⟩ := exists_stepTo b.core
  cases hphase : b.phase with
  | awaitingLoad => exact .inl ⟨rfl, by simp [Bench.step, hphase]⟩
  | loaded | stepping => exact .inr ⟨t, ht.step_eq, by simp [Bench.step, hphase, ht.step_eq]⟩

theorem Bench.Inv.step {b c : Bench} (h : b.Inv) (hstep : b.step = .next c) : c.Inv := by
  obtain ⟨-, hrefused⟩ | ⟨t, ht, hnext⟩ := b.step_eq
  · cases hrefused.symm.trans hstep
  · obtain rfl := Host.Outcome.next.inj (hnext.symm.trans hstep)
    exact ⟨h.core.step ht, fun hphase => absurd rfl hphase⟩

theorem Bench.Inv.happen {b c : Bench} {e : Event} (h : b.Inv) (hnext : b.happen e = .next c) : c.Inv := by
  cases e with
  | move m => exact h.move hnext
  | step => exact h.step hnext

/-! ### Runs -/

/-- A move is made or refused, and a step answers: neither stops outside the state. -/
theorem Bench.happen_ne_fault (b : Bench) (e : Event) (f : Fault) : b.happen e ≠ .fault f := by
  cases e with
  | move m =>
    cases m with
    | load program => cases hphase : b.phase <;> simp [Bench.happen, Bench.move, hphase]
    | _ => exact nofun
  | step =>
    intro hfault
    obtain ⟨-, h⟩ | ⟨t, -, h⟩ := b.step_eq <;> cases h.symm.trans hfault

/-- The induction over a run: what every event keeps holds of the bench a run reaches. -/
theorem Bench.Inv.run {b : Bench} (h : b.Inv) (es : List Event) :
    (∀ c, b.run es = .next c → c.Inv) ∧ ∀ f, b.run es ≠ .fault f := by
  induction es generalizing b with
  | nil => exact ⟨fun c hc => Host.Outcome.next.inj hc ▸ h, nofun⟩
  | cons e es ih =>
    rw [Bench.run]
    cases he : b.happen e with
    | next c => exact ih (h.happen he)
    | fault f => exact absurd he (b.happen_ne_fault e f)
    | refused r => simp

theorem Bench.start_inv (font : Vector Byte 80) (edge : Bool) : (Bench.start font edge).Inv :=
  ⟨State.resetWith_inv font _, fun _ => State.resetWith_mode font _⟩

/-! ### The obligations -/

/-- Settles O57: the reset state is running, with empty memory, a cleared stack and no report. -/
theorem resetMeetsInvariant : Obligations.ResetMeetsInvariant :=
  State.Inv.of_running (s := State.reset) (State.mode_eq_running.mpr ⟨rfl, rfl⟩) State.reset_memory_wf (by decide)
    (fun k hk => by simp [State.reset]) ⟨rfl, rfl, rfl⟩

/-- Settles O58: by the cases of a step. -/
theorem everyStepKeepsInvariant : Obligations.EveryStepKeepsInvariant := fun _ _ h hstep => h.step hstep

/-- Settles O59: by the cases of a move. -/
theorem everyHostMoveKeepsInvariant : Obligations.EveryHostMoveKeepsInvariant := fun _ _ _ h hmove => h.move hmove

/-- Settles O60: by induction over the events, from the bench after reset. -/
theorem everyRunMeetsInvariant : Obligations.EveryRunMeetsInvariant := fun font edge es =>
  (Bench.start_inv font edge).run es

end Sys2Proof.Machine
end

section
/-! PROOFS. What cannot be learnt (spec/10_state.md R14, R15, spec/40_step_cycle.md R87): two runs that differ in a part
no instruction reads. -/

namespace Sys2Proof.Machine

section TwoRuns

variable (i : Instr) (s : State)

/-! ### `running_in` -/

theorem ownFault_with_runningIn (b : Bool) : ownFault i { s with runningIn := b } = ownFault i s := by
  cases i <;> rfl

theorem effect_with_runningIn (b : Bool) :
    effect i { s with runningIn := b } = { effect i s with runningIn := b } := by
  cases i <;> rfl

theorem State.instrAt_with_runningIn (b : Bool) : ({ s with runningIn := b } : State).instrAt = s.instrAt := rfl

theorem stepFault_with_runningIn (b : Bool) : stepFault { s with runningIn := b } = stepFault s := by
  simp only [stepFault, State.instrAt_with_runningIn, ownFault_with_runningIn]

theorem waitingStep_with_runningIn (b : Bool) :
    waitingStep { s with runningIn := b } = { waitingStep s with runningIn := b, result := .ok b } := by
  obtain ⟨k, hedge, hkeys, -⟩ | ⟨h, hs⟩ := waitingStep_cases s
  · obtain ⟨k, hk⟩ := lowestKey_isSome hkeys
    rw [waitingStep_of_key hedge hk, waitingStep_of_key (s := { s with runningIn := b }) hedge hk]
    rfl
  · rw [hs, waitingStep_of_no_key (s := { s with runningIn := b }) h]
    rfl

/-! ### `sound_timer` -/

theorem ownFault_with_soundTimer (v : Byte) : ownFault i { s with soundTimer := v } = ownFault i s := by
  cases i <;> rfl

variable {i} in
theorem effect_with_soundTimer (h : ∀ x, i ≠ .ldStVx x) (v : Byte) :
    effect i { s with soundTimer := v } = { effect i s with soundTimer := v } := by
  cases i with
  | ldStVx x => exact absurd rfl (h x)
  | _ => rfl

/-! ### Stale stack entries -/

theorem ownFault_with_stack (other : Vector Word 16) : ownFault i { s with stack := other } = ownFault i s := by
  cases i <;> rfl

variable {i} in
theorem effect_with_stack (hret : i ≠ .ret) (hcall : ∀ nnn, i ≠ .call nnn) (other : Vector Word 16) :
    effect i { s with stack := other } = { effect i s with stack := other } := by
  cases i with
  | ret => exact absurd rfl hret
  | call nnn => exact absurd rfl (hcall nnn)
  | _ => rfl

variable {s}

/-- The stack is written by `00EE` and `2nnn` only. -/
theorem effect_stack {i : Instr} (hret : i ≠ .ret) (hcall : ∀ nnn, i ≠ .call nnn) :
    (effect i s).sp = s.sp ∧ (effect i s).stack = s.stack := by
  cases i with
  | ret => exact absurd rfl hret
  | call nnn => exact absurd rfl (hcall nnn)
  | _ => exact ⟨rfl, rfl⟩

theorem effect_ret_with_stack {other : Vector Word 16} (hused : s.sp.val ≠ 0)
    (hbelow : ∀ k < s.sp.val, other[k]? = s.stack[k]?) :
    effect .ret { s with stack := other } = { effect .ret s with stack := other } := by
  have hsp := s.sp.isLt
  have hentry : other[s.sp.val - 1] = s.stack[s.sp.val - 1] := by
    have h := hbelow (s.sp.val - 1) (by omega)
    rwa [Vector.getElem?_eq_getElem, Vector.getElem?_eq_getElem, Option.some.injEq] at h
  simp only [effect, hentry]

/-- A call writes the entry that its own `sp` then covers. -/
theorem effect_call_with_stack {nnn : BitVec 12} {other : Vector Word 16}
    (hbelow : ∀ k < s.sp.val, other[k]? = s.stack[k]?) :
    ∀ k < (effect (.call nnn) s).sp.val,
      (effect (.call nnn) { s with stack := other }).stack[k]? = (effect (.call nnn) s).stack[k]? := by
  intro k hk
  have hle : k < s.sp.val + 1 := Nat.lt_of_lt_of_le hk (Nat.min_le_left _ _)
  simp only [effect, Vector.getElem?_setIfInBounds]
  split
  · rfl
  · exact hbelow k (by omega)

end TwoRuns

/-! ### The obligations -/

/-- Settles O16: in each case of a step the signal is copied to the result and read nowhere else. -/
theorem runningSignalPassesThrough : Obligations.RunningSignalPassesThrough := by
  intro s t b hstep
  cases StepTo.of_step hstep with
  | stays hmode =>
    have h := step_of_faulted (s := { s with runningIn := b }) hmode
    refine ⟨_, h, ?_⟩
    rw [faultedStep_faulted, if_pos (State.mode_eq_faulted.mp hmode)]
    rfl
  | waits hmode =>
    have h := step_of_waiting (s := { s with runningIn := b }) hmode
    refine ⟨_, h, ?_⟩
    rw [if_neg (by simp [(State.mode_eq_waiting.mp hmode).1]), waitingStep_with_runningIn]
  | faults hmode c hc =>
    have h := step_of_stepFault (s := { s with runningIn := b }) hmode ((stepFault_with_runningIn s b).trans hc)
    refine ⟨_, h, ?_⟩
    rw [if_pos (takeFault_faulted s c _)]
    rfl
  | completes hmode i hi hok =>
    have h := step_of_completes (s := { s with runningIn := b }) hmode hi ((ownFault_with_runningIn i s b).trans hok)
    refine ⟨_, h, ?_⟩
    rw [if_neg (by simp [(State.mode_eq_running.mp hmode).1]), effect_with_runningIn]
    rfl

/-- Settles O51: no fault and no effect reads the timer, and only `Fx18` writes it. -/
theorem soundTimerIsReadByNoInstruction : Obligations.SoundTimerIsReadByNoInstruction := by
  intro i s t v hexec
  obtain ⟨c, hc, rfl⟩ | ⟨hok, rfl⟩ := exec_eq_next hexec
  · refine ⟨_, exec_of_fault ((ownFault_with_soundTimer i s v).trans hc), rfl, fun _ => rfl, ?_⟩
    rintro ⟨x, rfl⟩
    cases hc
  · refine ⟨_, exec_of_no_fault ((ownFault_with_soundTimer i s v).trans hok), ?_⟩
    by_cases hst : ∃ x, i = .ldStVx x
    · obtain ⟨x, rfl⟩ := hst
      exact ⟨rfl, fun h => absurd rfl (h x), fun _ => rfl⟩
    · have hne : ∀ x, i ≠ .ldStVx x := fun x he => hst ⟨x, he⟩
      rw [effect_with_soundTimer s hne]
      exact ⟨rfl, fun _ => rfl, fun h => absurd h hst⟩

/-- Settles O52: a return reads the entry below `sp`, a call writes the one at `sp`, and no other instruction reads or
writes an entry. -/
theorem staleStackEntriesAreUnobservable : Obligations.StaleStackEntriesAreUnobservable := by
  intro i s t other hbelow hexec
  obtain ⟨c, hc, rfl⟩ | ⟨hok, rfl⟩ := exec_eq_next hexec
  · exact ⟨_, exec_of_fault ((ownFault_with_stack i s other).trans hc), rfl, hbelow⟩
  · refine ⟨_, exec_of_no_fault ((ownFault_with_stack i s other).trans hok), ?_⟩
    by_cases hret : i = .ret
    · subst hret
      rw [effect_ret_with_stack (ownFault_ret_eq_none.mp hok) hbelow]
      exact ⟨rfl, fun k hk => hbelow k (Nat.lt_of_lt_of_le hk (Nat.sub_le _ _))⟩
    · by_cases hcall : ∃ nnn, i = .call nnn
      · obtain ⟨nnn, rfl⟩ := hcall
        exact ⟨rfl, effect_call_with_stack hbelow⟩
      · have hne : ∀ nnn, i ≠ .call nnn := fun nnn he => hcall ⟨nnn, he⟩
        obtain ⟨hsp, hstack⟩ := effect_stack (s := s) hret hne
        rw [effect_with_stack s hret hne]
        exact ⟨rfl, fun k hk => hstack ▸ hbelow k (hsp ▸ hk)⟩

end Sys2Proof.Machine
end

section
/-! PROOFS. Call and return (spec/41_control_flow.md R100, R102, R108). -/

namespace Sys2Proof.Machine

/-! ### Changes one after the other -/

theorem Kept.trans {p : Part} {s t u : State} (h : Kept p s t) (h' : Kept p t u) : Kept p s u := by
  cases p with
  | regs | memory => exact fun z => (h' z).trans (h z)
  | stack | keyWait | inputs => exact ⟨h'.1.trans h.1, h'.2.trans h.2⟩
  | faultReport =>
    obtain ⟨ha, hb, hc, hd⟩ := h
    obtain ⟨ha', hb', hc', hd'⟩ := h'
    exact ⟨ha'.trans ha, hb'.trans hb, hc'.trans hc, hd'.trans hd⟩
  | _ => exact Eq.trans h' h

theorem OnlyChanges.trans {ps : List Part} {s t u : State} (h : OnlyChanges ps s t) (h' : OnlyChanges ps t u) :
    OnlyChanges ps s u := fun p hp => (h p hp).trans (h' p hp)

/-! ### Call and return -/

theorem effect_call_onlyChanges (nnn : BitVec 12) (s : State) : OnlyChanges [.pc, .stack] s (effect (.call nnn) s) := by
  intro p hp
  cases p with
  | pc | stack => simp at hp
  | _ => simp [Kept, effect, State.reg]

theorem effect_ret_onlyChanges (s : State) : OnlyChanges [.pc, .stack] s (effect .ret s) := by
  intro p hp
  cases p with
  | pc | stack => simp at hp
  | _ => simp [Kept, effect, State.reg]

/-- Where an entry is free a call covers one more, the one that now holds its own address. -/
theorem effect_call_sp {nnn : BitVec 12} {s : State} (h : s.sp.val < 16) :
    (effect (.call nnn) s).sp.val = s.sp.val + 1 := Nat.min_eq_left h

theorem effect_call_stack_self {nnn : BitVec 12} {s : State} (h : s.sp.val < 16) :
    (effect (.call nnn) s).stack[s.sp.val]? = some s.pc := by
  simp [effect, h]

theorem effect_call_stack_of_ne {nnn : BitVec 12} {s : State} {k : Nat} (h : k ≠ s.sp.val) :
    (effect (.call nnn) s).stack[k]? = s.stack[k]? := by
  simp [effect, h.symm]

/-- A return goes on 2 past the entry below `sp`. -/
theorem effect_ret_pc {s : State} {a : Word} (h : s.stack[s.sp.val - 1]? = some a) : (effect .ret s).pc = a + 2 := by
  have hsp := s.sp.isLt
  rw [Vector.getElem?_eq_getElem (by omega), Option.some.injEq] at h
  exact congrArg (· + 2) h

theorem effect_ret_sp (s : State) : (effect .ret s).sp.val = s.sp.val - 1 := rfl

/-- Settles O18: a full stack faults, and a free entry takes the call's own address. -/
theorem callPushesItsOwnAddress : Obligations.CallPushesItsOwnAddress := by
  intro nnn s
  refine ⟨fun hfull => exec_reports_of_fault (if_pos hfull), fun hne => ?_⟩
  have hfree : s.sp.val < 16 := by omega
  exact ⟨_, exec_of_no_fault (ownFault_call_eq_none.mpr hfree), effect_call_sp hfree, effect_call_stack_self hfree,
    fun k hk => effect_call_stack_of_ne hk, addrOperand_toNat nnn, effect_call_onlyChanges nnn s⟩

/-- Settles O19: an empty stack faults, and an entry in use is returned to and left in place. -/
theorem returnPopsAndAddsTwo : Obligations.ReturnPopsAndAddsTwo := by
  intro s
  refine ⟨fun hempty => exec_reports_of_fault (if_pos hempty), fun hne => ?_⟩
  have hentry : s.stack[s.sp.val - 1]? = some s.stack[s.sp.val - 1] := Vector.getElem?_eq_getElem _
  exact ⟨_, _, exec_of_no_fault (ownFault_ret_eq_none.mpr hne), Nat.succ_pred hne, hentry, effect_ret_pc hentry, rfl,
    effect_ret_onlyChanges s⟩

/-- Settles O20: the entry the return reads is the one the call has written. -/
theorem callThenReturnResumesAfterCall : Obligations.CallThenReturnResumesAfterCall := by
  intro nnn s hne
  have hfree : s.sp.val < 16 := by omega
  have hsp := effect_call_sp (nnn := nnn) hfree
  have hentry : (effect (.call nnn) s).stack[(effect (.call nnn) s).sp.val - 1]? = some s.pc := by
    rw [hsp, Nat.add_sub_cancel]
    exact effect_call_stack_self hfree
  have hbelow : ∀ k < s.sp.val, (effect (.call nnn) s).stack[k]? = s.stack[k]? := fun k hk =>
    effect_call_stack_of_ne (Nat.ne_of_lt hk)
  exact ⟨_, _, exec_of_no_fault (ownFault_call_eq_none.mpr hfree), exec_of_no_fault (ownFault_ret_eq_none.mpr (by omega)),
    effect_ret_pc hentry, Fin.ext (by rw [effect_ret_sp, hsp, Nat.add_sub_cancel]), hbelow,
    (effect_call_onlyChanges nnn s).trans (effect_ret_onlyChanges _)⟩

end Sys2Proof.Machine
end

section
/-! PROOFS. A flag and a result, and the random byte (spec/42_alu.md R111, R117 to R122). -/

namespace Sys2Proof.Machine

/-! ### A flag and a result -/

theorem State.setFlag_setReg_advance_onlyChanges (s : State) (x : RegIdx) (f v : Byte) :
    OnlyChanges [.regs, .pc] s ((s.setFlag f).setReg x v).advance := by
  intro p hp
  cases p with
  | regs | pc => simp at hp
  | _ => simp [Kept]

/-- An instruction whose arm is `writeFlagReg` leaves the value in `V[x]` and, unless that is `VF`, the flag in `VF`. -/
theorem exec_writesFlagReg_of_eq {i : Instr} {s : State} {x : RegIdx} {f v : Byte}
    (h : exec i s = writeFlagReg x f v s) :
    ∃ t, exec i s = .next t ∧ t.reg x = v ∧ (x ≠ 0xF → t.reg 0xF = f) ∧
      (∀ z, z ≠ x → z ≠ 0xF → t.reg z = s.reg z) ∧ t.pc = s.pc + 2 ∧ OnlyChanges [.regs, .pc] s t := by
  refine ⟨_, h, State.reg_setReg_self _ x v, fun hx => ?_, fun z hz hf => ?_, rfl,
    s.setFlag_setReg_advance_onlyChanges x f v⟩
  · rw [State.reg_advance, State.reg_setReg_of_ne _ (Ne.symm hx), State.reg_setFlag, if_pos rfl]
  · rw [State.reg_advance, State.reg_setReg_of_ne _ hz, State.reg_setFlag, if_neg hf]

theorem subValue_eq (a b : Byte) : subValue a b = a - b := by
  refine BitVec.eq_of_toNat_eq ?_
  rw [subValue, truncByte, BitVec.toNat_ofNat, BitVec.toNat_sub]
  omega

theorem shrFlag_toNat (a : Byte) : (shrFlag a).toNat = a.toNat % 2 := by
  rw [shrFlag, BitVec.toNat_and]
  exact Nat.and_one_is_mod _

theorem shrValue_toNat (a : Byte) : (shrValue a).toNat = a.toNat / 2 := by
  rw [shrValue, BitVec.toNat_ushiftRight, Nat.shiftRight_eq_div_pow]

theorem shlFlag_toNat (a : Byte) : (shlFlag a).toNat = a.toNat / 128 := by
  rw [shlFlag, BitVec.toNat_ushiftRight, Nat.shiftRight_eq_div_pow]

theorem shlValue_toNat (a : Byte) : (shlValue a).toNat = a.toNat * 2 % 256 := by
  rw [shlValue, BitVec.toNat_shiftLeft, Nat.shiftLeft_eq]

/-- Settles O24: the flag is the carry, and the value the wrapping sum. -/
theorem addWritesCarryThenSum : Obligations.AddWritesCarryThenSum := by
  intro x y s
  obtain ⟨t, ht, hx, hframe⟩ := exec_writesFlagReg_of_eq (s := s) (i := .addReg x y) rfl
  exact ⟨t, ht, by rw [hx, addValue_toNat], hframe⟩

/-- Settles O25: the flag is the strict comparison, and the value the difference. -/
theorem subtractsWriteStrictFlagThenDifference : Obligations.SubtractsWriteStrictFlagThenDifference := by
  intro x y s
  obtain ⟨t, ht, hx, hframe⟩ := exec_writesFlagReg_of_eq (s := s) (i := .sub x y) rfl
  obtain ⟨u, hu, hx', hframe'⟩ := exec_writesFlagReg_of_eq (s := s) (i := .subn x y) rfl
  exact ⟨⟨t, ht, hx.trans (subValue_eq _ _), hframe⟩, u, hu, hx'.trans (subValue_eq _ _), hframe'⟩

/-- Settles O26: the flag is the bit shifted out, and the value the shifted register. -/
theorem shiftsWriteBitOutThenResult : Obligations.ShiftsWriteBitOutThenResult := by
  intro x y s
  obtain ⟨t, ht, hx, hflag, hframe⟩ := exec_writesFlagReg_of_eq (s := s) (i := .shr x y) rfl
  obtain ⟨u, hu, hx', hflag', hframe'⟩ := exec_writesFlagReg_of_eq (s := s) (i := .shl x y) rfl
  exact ⟨⟨t, ht, by rw [hx, shrValue_toNat], fun h => by rw [hflag h, shrFlag_toNat], hframe⟩,
    u, hu, by rw [hx', shlValue_toNat], fun h => by rw [hflag' h, shlFlag_toNat], hframe'⟩

/-! ### The random byte -/

theorem effect_rnd_onlyChanges (x : RegIdx) (nn : Byte) (s : State) :
    OnlyChanges [.regs, .pc, .draws] s (effect (.rnd x nn) s) := by
  intro p hp
  cases p with
  | regs | pc | draws => simp at hp
  | _ => simp [Kept, effect]

/-- Settles O27: the byte drawn enters `V[x]` through the mask alone. -/
theorem randomByteIsMasked : Obligations.RandomByteIsMasked := by
  intro x nn s
  have hx : (effect (.rnd x nn) s).reg x = Config.randomByte s.draws &&& nn := State.reg_setReg_self _ x _
  have hmask : (effect (.rnd x nn) s).reg x &&& ~~~nn = 0 := by
    rw [hx, BitVec.and_assoc, BitVec.and_not_self]
    exact BitVec.and_zero
  exact ⟨_, exec_of_no_fault rfl, hx, hmask, fun z hz => State.reg_setReg_of_ne _ hz _, rfl, rfl,
    effect_rnd_onlyChanges x nn s⟩

end Sys2Proof.Machine
end

section
/-! PROOFS. The glyph address, the keypad and the timers, and the idle step (spec/43_index_memory.md R132,
spec/45_keypad_timers.md, spec/70_reset_and_hazards.md R197). -/

namespace Sys2Proof.Machine

/-! ### The glyph address -/

/-- The largest glyph address is 0x054B, so the sum never wraps. -/
theorem fontAddress_toNat (v : Byte) : (0x050 + 5 * byteOperand v).toNat = 0x050 + 5 * v.toNat := by
  have hv := v.isLt
  have hop := byteOperand_toNat v
  rw [BitVec.toNat_add, BitVec.toNat_mul, hop]
  change (80 + 5 * v.toNat % 65536) % 65536 = _
  omega

theorem exec_ldF (x : RegIdx) (s : State) :
    exec (.ldF x) s = .next (s.setI (0x050 + 5 * byteOperand (s.reg x))).advance := rfl

/-- Settles O29: the one write of `I` is of the whole formula. -/
theorem fontAddressIsUnmaskedFormula : Obligations.FontAddressIsUnmaskedFormula := by
  intro x s
  exact exec_writesI_of_eq (exec_ldF x s) (fontAddress_toNat (s.reg x))

/-! ### Keys -/

/-- Settles O38: a register that names a key skips on its level. -/
theorem keySkipsFollowKeyLevel : Obligations.KeySkipsFollowKeyLevel := by
  intro x s hkey
  exact ⟨exec_skips_of_iff (exec_skp_of_key hkey) Iff.rfl, exec_skips_of_iff (exec_sknp_of_key hkey) (by simp)⟩

/-- Settles O39: a register that names no key faults. -/
theorem keyIndexAboveFifteenFaults : Obligations.KeyIndexAboveFifteenFaults := by
  intro x s hkey
  exact ⟨exec_reports_of_fault (if_pos hkey), exec_reports_of_fault (if_pos hkey)⟩

theorem effect_ldVxK_onlyChanges (x : RegIdx) (s : State) : OnlyChanges [.keyWait] s (effect (.ldVxK x) s) := by
  intro p hp
  cases p with
  | keyWait => simp at hp
  | _ => simp [Kept, effect, State.reg]

/-- Settles O40: the effect is the two fields of the wait. -/
theorem keyWaitIsEntered : Obligations.KeyWaitIsEntered := by
  intro x s
  exact ⟨_, exec_of_no_fault rfl, rfl, rfl, rfl, effect_ldVxK_onlyChanges x s⟩

/-! ### Timers -/

theorem effect_ldDtVx_onlyChanges (x : RegIdx) (s : State) :
    OnlyChanges [.delayTimer, .pc] s (effect (.ldDtVx x) s) := by
  intro p hp
  cases p with
  | delayTimer | pc => simp at hp
  | _ => simp [Kept, effect, State.reg]

theorem effect_ldStVx_onlyChanges (x : RegIdx) (s : State) :
    OnlyChanges [.soundTimer, .pc] s (effect (.ldStVx x) s) := by
  intro p hp
  cases p with
  | soundTimer | pc => simp at hp
  | _ => simp [Kept, effect, State.reg]

/-- Settles O42: each of the two writes its timer, which the end of the same step ticks. -/
theorem timersAreSetThenTicked : Obligations.TimersAreSetThenTicked := by
  intro x s
  exact ⟨⟨_, exec_of_no_fault rfl, rfl, rfl, effect_ldDtVx_onlyChanges x s⟩,
    ⟨_, exec_of_no_fault rfl, rfl, rfl, effect_ldStVx_onlyChanges x s⟩,
    fun hrun hi => ⟨_, step_of_completes hrun hi rfl, tickTimer_toNat (s.reg x)⟩,
    fun hrun hi => ⟨_, step_of_completes hrun hi rfl, tickTimer_toNat (s.reg x)⟩⟩

/-! ### Idle -/

/-- Settles O50: the jump to its own address leaves the state, and the step only finishes it. -/
theorem idleStepChangesOnlyTimers : Obligations.IdleStepChangesOnlyTimers := by
  rintro s ⟨hrun, nnn, hi, hself⟩
  have hstep : step s = .next s.finish := by
    have hjump : effect (.jp nnn) s = s := by rw [effect, State.setPc, hself]
    rw [step_of_completes hrun hi rfl, hjump]
  exact ⟨_, hstep, ⟨hrun, nnn, hi, hself⟩, s.finish_onlyChanges⟩

end Sys2Proof.Machine
end

section
/-! PROOFS. Block stores and loads (spec/43_index_memory.md R133 to R136), and the store that the next fetch sees
(spec/20_memory.md R50). -/

namespace Sys2Proof.Machine

/-! ### The frames of the three instructions -/

theorem effect_ldB_onlyChanges (x : RegIdx) (s : State) : OnlyChanges [.memory, .pc] s (effect (.ldB x) s) := by
  intro p hp
  cases p with
  | memory | pc => simp at hp
  | _ => simp [Kept, effect, State.reg]

theorem effect_storeRegs_onlyChanges (x : RegIdx) (s : State) :
    OnlyChanges [.memory, .index, .pc] s (effect (.storeRegs x) s) := by
  intro p hp
  cases p with
  | memory | index | pc => simp at hp
  | _ => simp [Kept, effect, State.reg]

theorem effect_loadRegs_onlyChanges (x : RegIdx) (s : State) :
    OnlyChanges [.regs, .index, .pc] s (effect (.loadRegs x) s) := by
  intro p hp
  cases p with
  | regs | index | pc => simp at hp
  | _ => simp [Kept, effect]

/-! ### What they write -/

/-- `I` moved past a block inside memory does not wrap (R134, R135). -/
theorem State.advanceI_I_toNat {s : State} {x : RegIdx} (h : s.I.toNat + x.toNat ≤ 0xFFF) :
    (s.advanceI x).I.toNat = s.I.toNat + x.toNat + 1 := by
  have hx := x.isLt
  rw [State.advanceI_I, rangeCount, BitVec.toNat_add, BitVec.toNat_ofNat]
  omega

/-- Outside the block a store leaves memory as it was. -/
theorem effect_storeRegs_read_of_outside {s : State} {x : RegIdx} {a : Nat}
    (h : a < dataBase s ∨ dataBase s + x.toNat < a) :
    (effect (.storeRegs x) s).memory.read a = s.memory.read a :=
  Memory.read_writeList_of_not_mem _ _ (by rw [regRange_length]; exact h)

/-- Inside it each address holds its register. -/
theorem effect_storeRegs_read {s : State} {x z : RegIdx} (h : z.toNat ≤ x.toNat) :
    (effect (.storeRegs x) s).memory.read (dataBase s + z.toNat) = s.reg z :=
  (Memory.read_writeList s.memory _ _ (by rw [regRange_length]; omega)).trans (regRange_getElem s x z h)

theorem effect_ldB_read_of_outside {s : State} {x : RegIdx} {a : Nat} (h : a < dataBase s ∨ dataBase s + 2 < a) :
    (effect (.ldB x) s).memory.read a = s.memory.read a :=
  Memory.read_writeList_of_not_mem _ _ (by rw [decimalDigits_length]; exact h)

theorem effect_ldB_read {s : State} {x : RegIdx} {k : Nat} (h : k < 3) :
    (effect (.ldB x) s).memory.read (dataBase s + k) = (decimalDigits (s.reg x))[k] :=
  Memory.read_writeList s.memory _ _ h

theorem truncByte_toNat_of_lt {v : Nat} (h : v < 256) : (truncByte v).toNat = v := by
  rw [truncByte, BitVec.toNat_ofNat]
  omega

/-- The registers up to `x` take the bytes of the block, the others are kept. -/
theorem effect_loadRegs_reg (s : State) (x z : RegIdx) :
    (effect (.loadRegs x) s).reg z =
      if z.toNat ≤ x.toNat then s.memory.read (dataBase s + z.toNat) else s.reg z := by
  simp only [effect, State.reg_advance, State.reg_advanceI, State.reg_setRegs, List.getElem?_map, dataBase]
  split
  · next h => rw [List.getElem?_range (by omega)]; rfl
  · next h => rw [List.getElem?_eq_none (by simp; omega)]; rfl

/-! ### The obligations -/

/-- Settles O30: out of range the fault, and in range the three digits, each of which fits a byte. -/
theorem decimalDigitsAreStored : Obligations.DecimalDigitsAreStored := by
  intro x s
  refine ⟨fun h => exec_reports_of_fault (if_pos h), fun h => ?_⟩
  have hbyte := (s.reg x).isLt
  refine ⟨_, exec_of_no_fault (ownFault_ldB_eq_none.mpr h), ?_, ?_, ?_, fun a ha => effect_ldB_read_of_outside ha, rfl,
    effect_ldB_onlyChanges x s⟩
  · exact (congrArg BitVec.toNat (effect_ldB_read (by decide : 0 < 3))).trans (truncByte_toNat_of_lt (by omega))
  · exact (congrArg BitVec.toNat (effect_ldB_read (by decide))).trans (truncByte_toNat_of_lt (by omega))
  · exact (congrArg BitVec.toNat (effect_ldB_read (by decide))).trans (truncByte_toNat_of_lt (by omega))

/-- Settles O31: out of range the fault, and in range the block of registers. -/
theorem registersAreStored : Obligations.RegistersAreStored := by
  intro x s
  refine ⟨fun h => exec_reports_of_fault (if_pos h), fun h => ?_⟩
  exact ⟨_, exec_of_no_fault (ownFault_storeRegs_eq_none.mpr h), fun z hz => effect_storeRegs_read hz,
    fun a ha => effect_storeRegs_read_of_outside ha, State.advanceI_I_toNat h, rfl, effect_storeRegs_onlyChanges x s⟩

/-- Settles O32: out of range the fault, and in range the registers up to `x` from the block. -/
theorem registersAreLoaded : Obligations.RegistersAreLoaded := by
  intro x s
  refine ⟨fun h => exec_reports_of_fault (if_pos h), fun h => ?_⟩
  refine ⟨_, exec_of_no_fault (ownFault_loadRegs_eq_none.mpr h), fun z hz => ?_, fun z hz => ?_,
    State.advanceI_I_toNat h, rfl, effect_loadRegs_onlyChanges x s⟩
  · rw [effect_loadRegs_reg, if_pos hz]
  · rw [effect_loadRegs_reg, if_neg (by omega)]

/-- Settles O33: both bytes of the next word lie in the block, so the fetch after the store reads the two registers. -/
theorem storedWordIsFetchedNext : Obligations.StoredWordIsFetchedNext := by
  intro s x z z' hrun hi hrange hsucc hle hpc
  obtain ⟨hfaulted, hhalted⟩ := State.mode_eq_running.mp hrun
  refine ⟨_, step_of_completes hrun hi (ownFault_storeRegs_eq_none.mpr hrange),
    State.mode_eq_running.mpr ⟨hfaulted, hhalted⟩, ?_⟩
  have hnext : (effect (.storeRegs x) s).finish.pc.toNat = dataBase s + z.toNat := by
    have hsum : (s.pc + 2).toNat = s.pc.toNat + 2 := by bv_omega
    exact hsum.trans hpc
  have hhi : (effect (.storeRegs x) s).finish.memory.read (dataBase s + z.toNat) = s.reg z :=
    effect_storeRegs_read (by omega)
  have hlo : (effect (.storeRegs x) s).finish.memory.read (dataBase s + z.toNat + 1) = s.reg z' := by
    rw [Nat.add_assoc, ← hsucc]
    exact effect_storeRegs_read hle
  rw [State.instrAt_of_fetchable (by rw [hnext, dataBase]; omega), State.wordAt, hnext, hhi, hlo]

end Sys2Proof.Machine
end

section
/-! PROOFS. Reset and program load (spec/70_reset_and_hazards.md R190 to R195). -/

namespace Sys2Proof.Machine

theorem State.resetWith_memory (font : Vector Byte 80) (s : State) :
    (s.resetWith font).memory = Memory.writeList [] 0x050 font.toList := rfl

/-- Settles O53: the fields are those of `State.reset`, and memory is FONTSET laid into the empty memory. -/
theorem resetLeavesTheListedValues : Obligations.ResetLeavesTheListedValues := by
  intro font s
  refine ⟨fun z => ?_, rfl, rfl, rfl, fun k hk => ?_, rfl, rfl, rfl, rfl, rfl, rfl, rfl, rfl, rfl, rfl, rfl,
    fun j hj => ?_, fun a ha => ?_⟩
  · simp [State.reg, State.resetWith, State.reset]
  · simp [State.resetWith, State.reset, hk]
  · rw [State.resetWith_memory, Memory.read_writeList _ _ _ (by simpa using hj)]
    simp
  · rw [State.resetWith_memory, Memory.read_writeList_of_not_mem _ _ (by simp; omega)]
    exact dif_neg (by omega)

/-- Settles O55: the default FONTSET lists no cell, and an empty program writes none. -/
theorem resetIsTheEmptyLaunch : Obligations.ResetIsTheEmptyLaunch := by
  have hmem : (State.launch fontset [] false).memory = [] := Memory.writeList_fontset
  calc State.launch fontset [] false = { State.reset with memory := (State.launch fontset [] false).memory } := rfl
    _ = State.reset := by rw [hmem]; rfl

theorem State.load_onlyChanges (program : List Byte) (s : State) : OnlyChanges [.memory] s (s.load program) := by
  intro p hp
  cases p with
  | memory => simp at hp
  | _ => simp [Kept, State.load, State.reg]

/-- Settles O56: the image is one block at 0x200, and only a bench that awaits its load takes one. -/
theorem programLoadLaysTheImage : Obligations.ProgramLoadLaysTheImage := by
  refine ⟨fun program s => ⟨fun j b hj hb => ?_, fun a ha => ?_, s.load_onlyChanges program⟩, fun program b hphase => ?_⟩
  · obtain ⟨hlen, rfl⟩ := List.getElem?_eq_some_iff.mp hb
    rw [State.load, Memory.read_writeList _ _ _ (by simp [programMax]; omega), List.getElem_take]
  · exact Memory.read_writeList_of_not_mem _ _ (by simp only [List.length_take, programMax]; omega)
  · simp [Bench.move, hphase]

end Sys2Proof.Machine
end

section
/-! PROOFS. The sprite draw (spec/44_graphics.md R141, R142): a draw toggles each cell of a list without repetition, so
every covered pixel is toggled once and its collision is seen in the frame before the draw. -/

namespace Sys2Proof.Machine

/-! ### Toggling a list of cells -/

theorem Canvas.foldl_toggle_fb {cells : List Nat} (hnd : cells.Nodup) (hlt : ∀ k ∈ cells, k < 2048) (c : Canvas)
    (j : Nat) : (cells.foldl Canvas.toggle c).fb.getLsbD j = (c.fb.getLsbD j ^^ decide (j ∈ cells)) := by
  induction cells generalizing c with
  | nil => simp
  | cons k cells ih =>
    obtain ⟨hk, hnd⟩ := List.nodup_cons.mp hnd
    obtain ⟨hk2048, hlt⟩ := List.forall_mem_cons.mp hlt
    rw [List.foldl_cons, ih hnd hlt, Canvas.toggle_fb c k j hk2048]
    by_cases hj : j = k
    · subst hj
      simp [hk]
    · simp [hj]

/-- No cell is toggled before it is looked at, so the collisions are those of the frame at the start. -/
theorem Canvas.foldl_toggle_collision {cells : List Nat} (hnd : cells.Nodup) (hlt : ∀ k ∈ cells, k < 2048) (c : Canvas) :
    (cells.foldl Canvas.toggle c).collision = (c.collision || cells.any c.fb.getLsbD) := by
  induction cells generalizing c with
  | nil => simp
  | cons k cells ih =>
    obtain ⟨hk, hnd⟩ := List.nodup_cons.mp hnd
    obtain ⟨hk2048, hlt⟩ := List.forall_mem_cons.mp hlt
    have hsame : cells.any (c.toggle k).fb.getLsbD = cells.any c.fb.getLsbD := by
      rw [Bool.eq_iff_iff, List.any_eq_true, List.any_eq_true]
      refine exists_congr fun j => and_congr_right fun hj => ?_
      rw [Canvas.toggle_fb c k j hk2048, if_neg (ne_of_mem_of_not_mem hj hk)]
    rw [List.foldl_cons, ih hnd hlt, hsame, List.any_cons, ← Bool.or_assoc]
    rfl

/-! ### The cells of a sprite -/

/-- The cells of one row byte, in the order in which `Canvas.drawRow` toggles them. -/
def rowCells (row : Byte) (vx cy : Nat) : List Nat :=
  ((List.range 8).filter (spriteBit row)).map fun c => cellIndex ((vx + c) % 64) cy

/-- The cells of the `n` rows `rows 0`, `rows 1`, ... with the top left corner at `(vx, vy)`. -/
def spriteCells (vx vy n : Nat) (rows : Nat → Byte) : List Nat :=
  (List.range n).flatMap fun r => rowCells (rows r) vx ((vy + r) % 32)

theorem Canvas.drawRow_eq (row : Byte) (vx cy : Nat) (canvas : Canvas) :
    canvas.drawRow row vx cy = (rowCells row vx cy).foldl Canvas.toggle canvas := by
  rw [rowCells, List.foldl_map, List.foldl_filter]
  rfl

theorem Canvas.drawRows_eq (vx vy : Nat) (rows : Nat → Byte) (r n : Nat) (canvas : Canvas) :
    Canvas.drawRows vx vy r ((List.range' r n).map rows) canvas =
      ((List.range' r n).flatMap fun r => rowCells (rows r) vx ((vy + r) % 32)).foldl Canvas.toggle canvas := by
  induction n generalizing r canvas with
  | zero => rfl
  | succ n ih =>
    rw [List.range'_succ, List.map_cons, Canvas.drawRows, ih, List.flatMap_cons, List.foldl_append, Canvas.drawRow_eq]

/-- A draw is the toggling of the sprite's cells. -/
theorem drawSprite_eq (fb : Frame) (vx vy n : Nat) (rows : Nat → Byte) :
    drawSprite fb vx vy ((List.range n).map rows) = (spriteCells vx vy n rows).foldl Canvas.toggle ⟨fb, false⟩ := by
  rw [drawSprite, spriteCells, List.range_eq_range', Canvas.drawRows_eq]

section Cells

variable {vx vy n : Nat} {rows : Nat → Byte}

theorem mem_rowCells {row : Byte} {cy k : Nat} :
    k ∈ rowCells row vx cy ↔ ∃ c, c < 8 ∧ spriteBit row c = true ∧ cellIndex ((vx + c) % 64) cy = k := by
  simp [rowCells, and_assoc]

theorem mem_spriteCells {k : Nat} :
    k ∈ spriteCells vx vy n rows ↔
      ∃ r c, r < n ∧ c < 8 ∧ spriteBit (rows r) c = true ∧ cellIndex ((vx + c) % 64) ((vy + r) % 32) = k := by
  simp [spriteCells, mem_rowCells]

theorem lt_of_mem_spriteCells : ∀ k ∈ spriteCells vx vy n rows, k < 2048 := by
  intro k hk
  obtain ⟨r, c, -, -, -, rfl⟩ := mem_spriteCells.mp hk
  simp only [cellIndex]
  omega

/-- Eight columns of 64 do not meet. -/
theorem rowCells_nodup (row : Byte) (vx cy : Nat) : (rowCells row vx cy).Nodup := by
  refine List.Nodup.map_on (fun c hc d hd h => ?_) (List.nodup_range.filter _)
  have hc := List.mem_range.mp (List.mem_filter.mp hc).1
  have hd := List.mem_range.mp (List.mem_filter.mp hd).1
  have := ((cellIndex_inj (by omega) (by omega)).mp h).1
  omega

/-- Nor do up to 32 rows of 32. -/
theorem spriteCells_nodup (hn : n ≤ 32) : (spriteCells vx vy n rows).Nodup := by
  refine List.nodup_flatMap.mpr ⟨fun r _ => rowCells_nodup _ _ _, ?_⟩
  refine List.nodup_range.pairwise_of_forall_ne fun r hr r' hr' hne => ?_
  intro k hk hk'
  obtain ⟨c, -, -, h⟩ := mem_rowCells.mp hk
  obtain ⟨c', -, -, h'⟩ := mem_rowCells.mp hk'
  have hr := List.mem_range.mp hr
  have hr' := List.mem_range.mp hr'
  have := ((cellIndex_inj (by omega) (by omega)).mp (h.trans h'.symm)).2
  omega

end Cells

/-! ### The effect of `Dxyn` -/

/-- The cells that `Dxyn` toggles. -/
def drawnCells (s : State) (x y : RegIdx) (n : BitVec 4) : List Nat :=
  spriteCells (s.reg x).toNat (s.reg y).toNat n.toNat fun r => s.memory.read (s.I.toNat + r)

section Drawn

variable (s : State) (x y : RegIdx) (n : BitVec 4)

theorem drawnCells_nodup : (drawnCells s x y n).Nodup := spriteCells_nodup (by omega)

theorem effect_drw_eq :
    effect (.drw x y n) s = (s.setCanvas ((drawnCells s x y n).foldl Canvas.toggle ⟨s.fb, false⟩)).advance := by
  rw [effect, drawSprite_eq]
  rfl

theorem effect_drw_fb (k : Nat) :
    (effect (.drw x y n) s).fb.getLsbD k = (s.fb.getLsbD k ^^ decide (k ∈ drawnCells s x y n)) := by
  rw [effect_drw_eq]
  exact Canvas.foldl_toggle_fb (drawnCells_nodup s x y n) lt_of_mem_spriteCells _ k

theorem effect_drw_flag :
    (effect (.drw x y n) s).reg 0xF = if (drawnCells s x y n).any s.fb.getLsbD = true then 1 else 0 := by
  rw [effect_drw_eq, State.reg_advance, State.reg_setCanvas, if_pos rfl,
    Canvas.foldl_toggle_collision (drawnCells_nodup s x y n) lt_of_mem_spriteCells, Bool.false_or]

theorem effect_drw_reg_of_ne {z : RegIdx} (h : z ≠ 0xF) : (effect (.drw x y n) s).reg z = s.reg z := by
  rw [effect_drw_eq, State.reg_advance, State.reg_setCanvas, if_neg h]

theorem effect_drw_onlyChanges : OnlyChanges [.regs, .frame, .dirty, .pc] s (effect (.drw x y n) s) := by
  intro p hp
  cases p with
  | regs | frame | dirty | pc => simp at hp
  | _ => simp [Kept, effect]

/-! ### Cells and pixels -/

theorem cellIndex_mem_drawnCells {cx cy : Nat} (hcx : cx < 64) :
    cellIndex cx cy ∈ drawnCells s x y n ↔ SpriteCovers s (s.reg x).toNat (s.reg y).toNat n.toNat cx cy := by
  rw [drawnCells, mem_spriteCells, SpriteCovers]
  simp only [cellIndex_inj (Nat.mod_lt _ (by decide : 0 < 64)) hcx]
  constructor
  · rintro ⟨r, c, hr, hc, hbit, hx, hy⟩
    exact ⟨r, c, hr, hc, hx, hy, hbit⟩
  · rintro ⟨r, c, hr, hc, hx, hy, hbit⟩
    exact ⟨r, c, hr, hc, hbit, hx, hy⟩

/-- Every drawn cell is a pixel of the frame. -/
theorem exists_pixel_of_mem_drawnCells {k : Nat} (h : k ∈ drawnCells s x y n) :
    ∃ cx < 64, ∃ cy < 32, cellIndex cx cy = k := by
  obtain ⟨r, c, -, -, -, hk⟩ := mem_spriteCells.mp h
  exact ⟨_, Nat.mod_lt _ (by decide), _, Nat.mod_lt _ (by decide), hk⟩

/-- The collision flag in terms of pixels. -/
theorem any_drawnCells_iff :
    (drawnCells s x y n).any s.fb.getLsbD = true ↔
      ∃ cx < 64, ∃ cy < 32,
        SpriteCovers s (s.reg x).toNat (s.reg y).toNat n.toNat cx cy ∧ s.pixel cx cy = true := by
  rw [List.any_eq_true]
  constructor
  · rintro ⟨k, hk, hon⟩
    obtain ⟨cx, hcx, cy, hcy, rfl⟩ := exists_pixel_of_mem_drawnCells s x y n hk
    exact ⟨cx, hcx, cy, hcy, (cellIndex_mem_drawnCells s x y n hcx).mp hk, hon⟩
  · rintro ⟨cx, hcx, cy, hcy, hcov, hon⟩
    exact ⟨_, (cellIndex_mem_drawnCells s x y n hcx).mpr hcov, hon⟩

/-! ### The same sprite twice -/

variable {s x y n}

/-- The first draw moves neither the sprite's bytes nor its corner, unless the corner is held in `VF`. -/
theorem drawnCells_effect_drw (hx : x ≠ 0xF) (hy : y ≠ 0xF) :
    drawnCells (effect (.drw x y n) s) x y n = drawnCells s x y n := by
  rw [drawnCells, effect_drw_reg_of_ne s x y n hx, effect_drw_reg_of_ne s x y n hy]
  rfl

theorem effect_drw_twice_fb (hx : x ≠ 0xF) (hy : y ≠ 0xF) :
    (effect (.drw x y n) (effect (.drw x y n) s)).fb = s.fb := by
  refine BitVec.eq_of_getLsbD_eq fun k _ => ?_
  rw [effect_drw_fb, drawnCells_effect_drw hx hy, effect_drw_fb, Bool.xor_assoc, Bool.xor_self, Bool.xor_false]

/-- The cells on which the second draw collides are those that the first turned on. -/
theorem any_drawnCells_effect_drw_iff (hx : x ≠ 0xF) (hy : y ≠ 0xF) :
    (drawnCells (effect (.drw x y n) s) x y n).any (effect (.drw x y n) s).fb.getLsbD = true ↔
      ∃ cx < 64, ∃ cy < 32, s.pixel cx cy = false ∧ (effect (.drw x y n) s).pixel cx cy = true := by
  rw [drawnCells_effect_drw hx hy, List.any_eq_true]
  constructor
  · rintro ⟨k, hk, hon⟩
    obtain ⟨cx, hcx, cy, hcy, rfl⟩ := exists_pixel_of_mem_drawnCells s x y n hk
    refine ⟨cx, hcx, cy, hcy, ?_, hon⟩
    rw [effect_drw_fb] at hon
    simpa [State.pixel, hk] using hon
  · rintro ⟨cx, -, cy, -, hoff, hon⟩
    refine ⟨cellIndex cx cy, ?_, hon⟩
    rw [State.pixel] at hoff hon
    rw [effect_drw_fb, hoff] at hon
    simpa using hon

end Drawn

/-! ### The obligations -/

/-- Settles O35: the cells of the list are the covered pixels. -/
theorem drawTogglesCoveredPixels : Obligations.DrawTogglesCoveredPixels := by
  intro x y n s hrange
  refine ⟨_, exec_of_no_fault (ownFault_drw_eq_none.mpr hrange), fun cx hcx cy _ => ⟨fun hcov => ?_, fun hcov => ?_⟩,
    fun hhit => ?_, fun hmiss => ?_, fun z hz => effect_drw_reg_of_ne s x y n hz, rfl, rfl,
    effect_drw_onlyChanges s x y n⟩
  · have hmem := (cellIndex_mem_drawnCells s x y n hcx).mpr hcov
    simp [State.pixel, effect_drw_fb, hmem]
  · have hmem := mt (cellIndex_mem_drawnCells s x y n hcx).mp hcov
    simp [State.pixel, effect_drw_fb, hmem]
  · rw [effect_drw_flag, if_pos ((any_drawnCells_iff s x y n).mpr hhit)]
  · rw [effect_drw_flag, if_neg (mt (any_drawnCells_iff s x y n).mp hmiss)]

/-- Settles O36: the table gives the range fault. -/
theorem drawOutsideMemoryFaults : Obligations.DrawOutsideMemoryFaults := by
  intro x y n s hn hout
  exact exec_reports_of_fault (if_pos ⟨hn, hout⟩)

/-- Settles O37: both draws toggle the same cells. -/
theorem drawTwiceRestoresFrame : Obligations.DrawTwiceRestoresFrame := by
  intro x y n s hx hy hrange
  have hok : ownFault (.drw x y n) s = none := ownFault_drw_eq_none.mpr hrange
  refine ⟨_, _, exec_of_no_fault hok, exec_of_no_fault (ownFault_drw_eq_none.mpr hrange), effect_drw_twice_fb hx hy,
    fun hlit => ?_, fun hlit => ?_⟩
  · rw [effect_drw_flag, if_pos ((any_drawnCells_effect_drw_iff hx hy).mpr hlit)]
  · rw [effect_drw_flag, if_neg (mt (any_drawnCells_effect_drw_iff hx hy).mp hlit)]

end Sys2Proof.Machine
end
